-- ==== Sys2Proof/Word.lean ====
section
/-! DEFINITION. The bit-vector types of the RTU block: bytes on the wire, 16-bit register words,
32-bit host words, and the 9-bit length registers (spec/00_scope.md R7, R12; spec/10_state.md R21). -/

namespace Sys2Proof

/-- One byte on the wire, or one entry of a frame buffer. Bit 0 is the least significant bit (R7). -/
abbrev Byte := BitVec 8

/-- One 16-bit word: a Modbus register, a register address, a register count, or a CRC (R22). -/
abbrev Half := BitVec 16

/-- One 32-bit host-bus word, VALUE, or REGPAIR (R21, R22). -/
abbrev Word := BitVec 32

/-- The 9-bit length registers TXLEN, RXLEN and PAYLEN, and the operand N (R21, R74). -/
abbrev Len := BitVec 9

end Sys2Proof
end

