-- ==== Sys2Proof/Config.lean ====
section
/-! DEFINITION. What is fixed for the block: the implementation parameters of spec/00_scope.md R6, and the free
value the spec leaves open (the contents of a buffer byte that nothing has written since reset, R241). -/

namespace Sys2Proof

/-- `FRAME_MAX`: the capacity in bytes of each of TXBUF and RXBUF (R6). -/
def Config.frameMax : Nat := 256

/-- `REG_WINDOW`: the size in bytes of the register window (R6, R50). -/
def Config.regWindow : Nat := 4096

/-- `RD_MIN_LEN`: the minimum length of a read response when COUNT is not 2 (R6). -/
def Config.rdMinLen : Nat := 5

/-- `WR_MIN_LEN`: the minimum length of a write response (R6). -/
def Config.wrMinLen : Nat := 6

/-- `CRC_INIT` (R6). -/
def Config.crcInit : Half := 0xFFFF

/-- `CRC_POLY`, in the reflected form (R6). -/
def Config.crcPoly : Half := 0xA001

/-- `FC_READ`: Read Holding Registers (R6). -/
def Config.fcRead : Byte := 0x03

/-- `FC_WRITE`: Write Multiple Registers (R6). -/
def Config.fcWrite : Byte := 0x10

/-- `WR_COUNT`: the register count of every write request (R6). -/
def Config.wrCount : Half := 2

/-- `WR_BYTECOUNT`: the byte count of every write request (R6). -/
def Config.wrByteCount : Byte := 4

/-- `RD_MIN_LEN_SINGLE`: its two legal values, 9 (the default) and 5 (R6, D11). -/
inductive RdMinLenSingle where
  | nine
  | five
deriving DecidableEq, Repr

/-- The parameter's value in bytes. -/
def RdMinLenSingle.bytes : RdMinLenSingle → Nat
  | .nine => 9
  | .five => 5

/-- The parameters of R6 that a platform or a variant chooses. They are a configuration argument of the model: a
state carries them and no step changes them (notes/assumptions/7.md and 8.md). -/
structure Params where
  /-- `BLOCK_BASE`: the host address of offset 0x000 of the register window (R6, R50). OPEN in the spec. -/
  blockBase : Nat
  /-- `RD_MIN_LEN_SINGLE`: the minimum read-response length when COUNT is 2 (R6, R170). -/
  rdMinLenSingle : RdMinLenSingle
deriving DecidableEq, Repr

/-- The two frame buffers (R50). -/
inductive Buffer where
  | tx
  | rx
deriving DecidableEq, Repr

/-- FREE VALUE: the byte that entry `i` of a buffer holds from a reset until it is written (R36, R241: "an arbitrary
value, and a model takes it as a free draw"). `epoch` numbers the reset, so that each reset draws afresh, and one
unwritten byte reads the same twice. It has no body: nothing can evaluate it or prove a value of it. -/
opaque Config.bufferDraw : (buffer : Buffer) → (epoch : Nat) → (i : Nat) → Byte

end Sys2Proof
end

