-- ==== Sys2Proof/Syntax.lean ====
section
/-! DEFINITION. The fifteen commands of the block, one constructor per row of spec/opcode_table.json, with the
operands that formats Z, B, N and KM carry (spec/30_encoding.md R72–R76). A command is the block's counterpart of
an instruction (R13). -/

namespace Sys2Proof

/-- A command word's meaning-bearing parts. Formats: Z has no operand, B the byte `b`, N the count `n`, KM the value
index `k` and the mode `m` (R72). -/
inductive Instr where
  /-- CRC.INIT (OP 0x01, format Z): R105. -/
  | crcInit
  /-- CRC.BYTE B (OP 0x02, format B): R106. -/
  | crcByte (b : Byte)
  /-- CRC.TX N (OP 0x03, format N): R107. -/
  | crcTx (n : Len)
  /-- CRC.RX N (OP 0x04, format N): R108. -/
  | crcRx (n : Len)
  /-- ENC.F32 (OP 0x10, format Z): R122. -/
  | encF32
  /-- ENC.I32 (OP 0x11, format Z): R123. -/
  | encI32
  /-- ENC.U32 (OP 0x12, format Z): R124. -/
  | encU32
  /-- DEC.F32 (OP 0x18, format Z): R126. -/
  | decF32
  /-- DEC.I32 (OP 0x19, format Z): R127. -/
  | decI32
  /-- DEC.U32 (OP 0x1A, format Z): R128. -/
  | decU32
  /-- DEC.PAY K, M (OP 0x1C, format KM): R131. -/
  | decPay (k : Byte) (m : BitVec 2)
  /-- BLD.RD (OP 0x20, format Z): R151. -/
  | bldRd
  /-- BLD.WR (OP 0x21, format Z): R153. -/
  | bldWr
  /-- PRS.RD (OP 0x30, format Z): R171. -/
  | prsRd
  /-- PRS.WR (OP 0x31, format Z): R173. -/
  | prsWr
deriving DecidableEq, Repr

end Sys2Proof
end

