-- ==== Sys2Proof/WellFormed.lean ====
section
/-! DEFINITION. The value checks of spec/30_encoding.md R74, R75 that look at the command word alone: `N ≤ 256` and
`M ≠ 3`. The checks against TXLEN and RXLEN look at the state and are part of the meanings (R107, R108). -/

namespace Sys2Proof

/-- The word-only value checks of the column "value checks" of R76. -/
def Instr.wf : Instr → Bool
  | .crcInit => true
  | .crcByte _ => true
  | .crcTx n => decide (n.toNat ≤ Config.frameMax)
  | .crcRx n => decide (n.toNat ≤ Config.frameMax)
  | .encF32 => true
  | .encI32 => true
  | .encU32 => true
  | .decF32 => true
  | .decI32 => true
  | .decU32 => true
  | .decPay _ m => decide (m ≠ 3)
  | .bldRd => true
  | .bldWr => true
  | .prsRd => true
  | .prsWr => true

/-- A command whose operands pass the word-only value checks. -/
abbrev Instr.WellFormed (i : Instr) : Prop := i.wf = true

end Sys2Proof
end

