-- ==== Sys2Proof/Decode.lean ====
section
/-! DEFINITION. From command words to commands and back (spec/30_encoding.md R70–R78). The decoder reads the OP byte,
checks the reserved bits of the row's format (R72) and the word-only value checks (R74, R75). It is total: every
32-bit word is a command or is rejected by name (R78). -/

namespace Sys2Proof

/-- Why a word is no legal command. Each is an illegal encoding of R77, and the block raises ILLEGAL for it. -/
inductive DecodeError where
  /-- The OP byte is in no row of R76. -/
  | unassignedOp (op : Byte)
  /-- A bit that the row's format marks `0` is 1. -/
  | reservedBitSet (op : Byte)
  /-- `N > 256` in CRC.TX or CRC.RX (R74). -/
  | countAbove256 (n : Len)
  /-- `M = 3` in DEC.PAY (R75). -/
  | modeThree
deriving DecidableEq, Repr

/-- `OP = w[7:0]` (R72). -/
def opField (w : Word) : Byte := w.extractLsb' 0 8

/-- `B = w[15:8]` (R73). -/
def bField (w : Word) : Byte := w.extractLsb' 8 8

/-- `N = w[24:16]` (R74). -/
def nField (w : Word) : Len := w.extractLsb' 16 9

/-- `K = w[15:8]` (R75). -/
def kField (w : Word) : Byte := w.extractLsb' 8 8

/-- `M = w[17:16]` (R75). -/
def mField (w : Word) : BitVec 2 := w.extractLsb' 16 2

/-- Format Z: bits 31…8 are reserved (R72). -/
def decodeZ (w : Word) (i : Instr) : Except DecodeError Instr :=
  if w.extractLsb' 8 24 = 0 then .ok i else .error (.reservedBitSet (opField w))

/-- Format B: bits 31…16 are reserved (R72). -/
def decodeB (w : Word) (i : Byte → Instr) : Except DecodeError Instr :=
  if w.extractLsb' 16 16 = 0 then .ok (i (bField w)) else .error (.reservedBitSet (opField w))

/-- Format N: bits 31…25 and 15…8 are reserved (R72), and `N ≤ 256` (R74). -/
def decodeN (w : Word) (i : Len → Instr) : Except DecodeError Instr :=
  if w.extractLsb' 25 7 = 0 ∧ w.extractLsb' 8 8 = 0 then
    if (nField w).toNat ≤ Config.frameMax then .ok (i (nField w)) else .error (.countAbove256 (nField w))
  else .error (.reservedBitSet (opField w))

/-- Format KM: bits 31…18 are reserved (R72), and `M ≠ 3` (R75). -/
def decodeKM (w : Word) (i : Byte → BitVec 2 → Instr) : Except DecodeError Instr :=
  if w.extractLsb' 18 14 = 0 then
    if mField w = 3 then .error .modeThree else .ok (i (kField w) (mField w))
  else .error (.reservedBitSet (opField w))

/-- The decoder: one line per row of R76. -/
def decode (w : Word) : Except DecodeError Instr :=
  if opField w = 0x01 then decodeZ w .crcInit
  else if opField w = 0x02 then decodeB w .crcByte
  else if opField w = 0x03 then decodeN w .crcTx
  else if opField w = 0x04 then decodeN w .crcRx
  else if opField w = 0x10 then decodeZ w .encF32
  else if opField w = 0x11 then decodeZ w .encI32
  else if opField w = 0x12 then decodeZ w .encU32
  else if opField w = 0x18 then decodeZ w .decF32
  else if opField w = 0x19 then decodeZ w .decI32
  else if opField w = 0x1A then decodeZ w .decU32
  else if opField w = 0x1C then decodeKM w .decPay
  else if opField w = 0x20 then decodeZ w .bldRd
  else if opField w = 0x21 then decodeZ w .bldWr
  else if opField w = 0x30 then decodeZ w .prsRd
  else if opField w = 0x31 then decodeZ w .prsWr
  else .error (.unassignedOp (opField w))

/-- Format Z as a word: OP in [7:0] (R72, R79). -/
def encodeZ (op : Byte) : Word := op.setWidth 32

/-- Format B as a word: `(b << 8) | OP` (R72, R79). -/
def encodeB (b op : Byte) : Word := (b.setWidth 32 <<< 8) ||| op.setWidth 32

/-- Format N as a word: `(n << 16) | OP` (R72, R79). -/
def encodeN (n : Len) (op : Byte) : Word := (n.setWidth 32 <<< 16) ||| op.setWidth 32

/-- Format KM as a word: `(m << 16) | (k << 8) | OP` (R72, R79). -/
def encodeKM (m : BitVec 2) (k op : Byte) : Word :=
  (m.setWidth 32 <<< 16) ||| (k.setWidth 32 <<< 8) ||| op.setWidth 32

/-- The encoder: the word of each command, from the formats and OP values of R72 and R76. -/
def encode : Instr → Word
  | .crcInit => encodeZ 0x01
  | .crcByte b => encodeB b 0x02
  | .crcTx n => encodeN n 0x03
  | .crcRx n => encodeN n 0x04
  | .encF32 => encodeZ 0x10
  | .encI32 => encodeZ 0x11
  | .encU32 => encodeZ 0x12
  | .decF32 => encodeZ 0x18
  | .decI32 => encodeZ 0x19
  | .decU32 => encodeZ 0x1A
  | .decPay k m => encodeKM m k 0x1C
  | .bldRd => encodeZ 0x20
  | .bldWr => encodeZ 0x21
  | .prsRd => encodeZ 0x30
  | .prsWr => encodeZ 0x31

/-- The decoder on a row of spec/opcode_table.json: the 32-bit word whose bits above `nbits` are 0. A command is one
32-bit word and never bytes in a memory (R64, R71), so there is no byte order to apply. -/
def decodeTableWord (nbits w : Nat) : Option Instr :=
  (decode (BitVec.ofNat 32 (w % 2 ^ nbits))).toOption

end Sys2Proof
end

