-- ==== Sys2Proof/Machine/State.lean ====
section
/-! DEFINITION. The state of the RTU block as plain data: every register and field of spec/10_state.md R21–R32, the two
frame buffers, and, beside them, what the host and the platform supply from outside (pending accesses, the reset line,
the words read so far, the parameters of R6). Reset values: R36. -/

namespace Sys2Proof.Machine

/-- The outcome codes of STATUS.RESULT (R200). The reserved codes 0x9–0xE are never written by the block and are not
values of this type (spec/93_implementation_defined.md row 8). -/
inductive ResultCode where
  | success
  | timeout
  | short
  | crc
  | slave
  | func
  | addr
  | count
  | decode
  | none
deriving DecidableEq, Repr

/-- The interpretation of VALUE (R27). The value 3 is never written by the block and is not a value of this type. -/
inductive Tag where
  | f32
  | i32
  | u32
deriving DecidableEq, Repr

/-- The bytes of a frame buffer that have been written since reset, by index, with strictly rising indexes below 256.
An index that is not listed has no written byte: it reads as the free draw `Config.bufferDraw` (R241), which
`State.bufferAt` supplies. -/
abbrev Memory := List Host.Cell

/-- Indexes strictly rising from at least `lo`, and all below `FRAME_MAX`. -/
def Memory.wfFrom : Nat → Memory → Bool
  | _, [] => true
  | lo, (a, _) :: m => decide (lo ≤ a) && decide (a < Config.frameMax) && Memory.wfFrom (a + 1) m

/-- The canonical form of a buffer: equal written contents are equal lists. -/
def Memory.wf (m : Memory) : Bool := Memory.wfFrom 0 m

/-- What a host access does: a read, or a write of a word (R51). The word of a write whose width is not 32 bits is
never stored (R53). -/
inductive AccessKind where
  | read
  | write (w : Word)
deriving DecidableEq, Repr

/-- One host access: a host address, a width in bits, and what it does (R51, R53). -/
structure Access where
  addr : Nat
  bits : Nat
  kind : AccessKind
deriving DecidableEq, Repr

/-- What reaches the block from outside: an access of the one host (R20), or the platform driving the reset input
(R240). -/
inductive Event where
  | access (a : Access)
  | resetLine (asserted : Bool)
deriving DecidableEq, Repr

/-- The state. The first block of fields is the spec's. The second is the model's own: it holds what R240 and R249 say
of the world around the block, the parameters of R6, and the number of the reset for the free draws. -/
structure State where
  /-- CRC, offset 0x008 (R22). -/
  crc : Half
  /-- SLAVE, offset 0x00C (R22). -/
  slave : Byte
  /-- ADDR, offset 0x010 (R22). -/
  addr : Half
  /-- COUNT, offset 0x014 (R22). -/
  count : Half
  /-- VALUE, offset 0x018 (R27). -/
  value : Word
  /-- REGPAIR, offset 0x01C: REGHI is bits [31:16], REGLO bits [15:0] (R28). -/
  regpair : Word
  /-- TAG, offset 0x020 (R27). -/
  tag : Tag
  /-- TXLEN, offset 0x024 (R29). -/
  txlen : Len
  /-- RXLEN, offset 0x028 (R30, R31). -/
  rxlen : Len
  /-- BYTECOUNT, offset 0x02C (R32). -/
  bytecount : Byte
  /-- PAYLEN, offset 0x030 (R32). -/
  paylen : Len
  /-- STATUS.RESULT, bits [3:0] of offset 0x004 (R24). -/
  result : ResultCode
  /-- STATUS.PV, bit [4] (R24). -/
  pv : Bool
  /-- STATUS.ILLEGAL, bit [8], sticky (R24, R203). -/
  illegal : Bool
  /-- STATUS.BUSERR, bit [9], sticky (R24, R204). -/
  buserr : Bool
  /-- The written bytes of TXBUF, offsets 0x400–0x7FC (R29). -/
  tx : Memory
  /-- The written bytes of RXBUF, offsets 0x800–0xBFC (R30). -/
  rx : Memory
  /-- Model's own: the number of the last reset, to which the free draws of R241 are tied. -/
  drawEpoch : Nat
  /-- The level of the reset input (R240): true while it is asserted. -/
  inReset : Bool
  /-- Model's own: the host accesses and reset-line changes still to come, in the order they happen (R61). -/
  pending : List Event
  /-- Model's own: the words that the host's reads have returned so far (R249), the latest first. -/
  reads : List Word
  /-- Model's own carrier of the configuration arguments of R6. No step changes it. -/
  params : Params
deriving DecidableEq, Repr

/-- The block never stops the machine: its faults ILLEGAL and BUSERR are sticky bits of STATUS and the next access is
accepted as before (R203, R204, R208). So no meaning and no step raises a fault, and the type has no constructor. -/
inductive Fault where
deriving DecidableEq, Repr

/-- Why a command has no meaning in the model. -/
inductive Refusal where
  /-- Raised only by an arm of `exec` for a command that has no meaning yet; safe, since nothing is claimed of it. No
  arm uses it: every command of the table has its meaning. -/
  | notModelled (mnemonic : String)
deriving DecidableEq, Repr

/-- The block right after its reset input is released (R36, R240), with no buffer byte written, no access pending and
no word read. `params` has the spec's default `RD_MIN_LEN_SINGLE` = 9 (R6) and, for the OPEN `BLOCK_BASE`, the model's
choice 0 (notes/assumptions/7.md); `drawEpoch` starts at the model's choice 0 (notes/assumptions/5.md). -/
def State.reset : State where
  crc := 0xFFFF
  slave := 0x00
  addr := 0x0000
  count := 0x0002
  value := 0x00000000
  regpair := 0x00000000
  tag := .f32
  txlen := 0
  rxlen := 0
  bytecount := 0
  paylen := 0
  result := .none
  pv := false
  illegal := false
  buserr := false
  tx := []
  rx := []
  drawEpoch := 0
  inReset := false
  pending := []
  reads := []
  params := { blockBase := 0, rdMinLenSingle := .nine }

end Sys2Proof.Machine
end

