-- ==== Sys2Proof/Machine/Ops.lean ====
section
/-! DEFINITION. The named operations over buffers and registers that every meaning is written with: `TX[i]`, `RX[i]`,
`x[R] <- v` (spec/00_scope.md R10), the two sticky faults (spec/60_exceptions.md R203, R204) and the reset input
(spec/70_reset_and_hazards.md R240). -/

namespace Sys2Proof.Machine

/-- The byte written at index `i` since reset, if there is one. -/
def Memory.byte? : Memory → Nat → Option Byte
  | [], _ => none
  | (a, b) :: m, i => if a = i then some b else Memory.byte? m i

/-- Write one byte, keeping the indexes strictly rising. -/
def Memory.write : Memory → Nat → Byte → Memory
  | [], i, b => [(i, b)]
  | (a, c) :: m, i, b =>
    if a < i then (a, c) :: Memory.write m i b
    else if a = i then (i, b) :: m
    else (i, b) :: (a, c) :: m

/-- Write a byte sequence at indexes `i`, `i + 1`, … (`for i in 0 … n: TX[i] <- F[i]` of R151, R153). -/
def Memory.writeBytes : Memory → Nat → List Byte → Memory
  | m, _, [] => m
  | m, i, b :: bs => Memory.writeBytes (Memory.write m i b) (i + 1) bs

/-- What a buffer entry holds: the byte written there, else the free draw of the last reset (R241). This is the one
definition of what an index that nothing has written reads as. -/
def State.bufferAt (s : State) (buf : Buffer) (m : Memory) (i : Nat) : Byte :=
  (m.byte? i).getD (Config.bufferDraw buf s.drawEpoch i)

/-- `TX[i]` (R10, R29). -/
def State.txAt (s : State) (i : Nat) : Byte := s.bufferAt .tx s.tx i

/-- `RX[i]` (R10, R30). -/
def State.rxAt (s : State) (i : Nat) : Byte := s.bufferAt .rx s.rx i

/-- `TX[i : i + n]` (R9). -/
def State.txBytes (s : State) : Nat → Nat → List Byte
  | _, 0 => []
  | i, n + 1 => s.txAt i :: s.txBytes (i + 1) n

/-- `RX[i : i + n]` (R9). -/
def State.rxBytes (s : State) : Nat → Nat → List Byte
  | _, 0 => []
  | i, n + 1 => s.rxAt i :: s.rxBytes (i + 1) n

/-- `x[CRC] <- v` (R22). -/
def State.setCrc (v : Half) (s : State) : State := { s with crc := v }

/-- `x[SLAVE] <- v` (R22). -/
def State.setSlave (v : Byte) (s : State) : State := { s with slave := v }

/-- `x[ADDR] <- v` (R22). -/
def State.setAddr (v : Half) (s : State) : State := { s with addr := v }

/-- `x[COUNT] <- v` (R22). -/
def State.setCount (v : Half) (s : State) : State := { s with count := v }

/-- `x[VALUE] <- v` (R22, R27). -/
def State.setValue (v : Word) (s : State) : State := { s with value := v }

/-- `x[REGPAIR] <- v` (R22, R28). -/
def State.setRegpair (v : Word) (s : State) : State := { s with regpair := v }

/-- `x[TAG] <- v` (R27). -/
def State.setTag (v : Tag) (s : State) : State := { s with tag := v }

/-- `x[TXLEN] <- v` (R29). -/
def State.setTxlen (v : Len) (s : State) : State := { s with txlen := v }

/-- `x[RXLEN] <- v` (R30). -/
def State.setRxlen (v : Len) (s : State) : State := { s with rxlen := v }

/-- `x[BYTECOUNT] <- v` (R32). -/
def State.setBytecount (v : Byte) (s : State) : State := { s with bytecount := v }

/-- `x[PAYLEN] <- v` (R32). -/
def State.setPaylen (v : Len) (s : State) : State := { s with paylen := v }

/-- `result <- K` (R10, R24). -/
def State.setResult (k : ResultCode) (s : State) : State := { s with result := k }

/-- `x[PV] <- v` (R24). -/
def State.setPv (v : Bool) (s : State) : State := { s with pv := v }

/-- Replace the written bytes of TXBUF. -/
def State.setTx (m : Memory) (s : State) : State := { s with tx := m }

/-- Replace the written bytes of RXBUF. -/
def State.setRx (m : Memory) (s : State) : State := { s with rx := m }

/-- `raise ILLEGAL(cmd)`: the sticky bit is set and nothing else changes (R10, R203). The block has no trap: no state
is saved and no control moves (R208). -/
def State.raiseIllegal (s : State) : State := { s with illegal := true }

/-- `raise BUSERR(addr)`: the sticky bit is set and nothing else changes (R10, R204). -/
def State.raiseBuserr (s : State) : State := { s with buserr := true }

/-- A read has returned `w` to the host (R51, R249). -/
def State.pushRead (w : Word) (s : State) : State := { s with reads := w :: s.reads }

/-- The events still to come (R61). -/
def State.setPending (es : List Event) (s : State) : State := { s with pending := es }

/-- The level of the reset input (R240). -/
def State.setInReset (b : Bool) (s : State) : State := { s with inReset := b }

/-- The reset input is released: every piece of block state takes its value of R36, every buffer byte is a new free draw
(R241), and what lies outside the block (events to come, words already read, parameters) is as it was. -/
def State.release (s : State) : State :=
  { State.reset with
    drawEpoch := s.drawEpoch + 1
    pending := s.pending
    reads := s.reads
    params := s.params }

/-- The platform drives the reset input (R240). Asserting it only holds the block; the reset values are there when it is
released. Driving it low when it is low is no release (notes/assumptions/6.md). -/
def State.driveReset (asserted : Bool) (s : State) : State :=
  if asserted then s.setInReset true
  else if s.inReset then s.release
  else s

end Sys2Proof.Machine
end

