-- ==== Sys2Proof/Machine/Operands.lean ====
section
/-! DEFINITION. Operand forms: the byte order of the wire (spec/20_memory.md R54, R55), the split and join of a 32-bit
word (spec/42_codec.md R120), the state-dependent check of the count N (spec/30_encoding.md R74) and the three ways the
mode M assembles four payload bytes (spec/30_encoding.md R75, spec/42_codec.md R131). -/

namespace Sys2Proof.Machine

/-- `hi8(v) = v[15:8]` (R12). -/
def hi8 (v : Half) : Byte := v.extractLsb' 8 8

/-- `lo8(v) = v[7:0]` (R12). -/
def lo8 (v : Half) : Byte := v.extractLsb' 0 8

/-- The high half of `split(v)`: `v[31:16]` (R120). -/
def splitHi (v : Word) : Half := v.extractLsb' 16 16

/-- The low half of `split(v)`: `v[15:0]` (R120). -/
def splitLo (v : Word) : Half := v.extractLsb' 0 16

/-- `join(hi, lo) = hi : lo`, that is `high<<16 | low` (R120). -/
def join (hi lo : Half) : Word := (hi.setWidth 32 <<< 16) ||| lo.setWidth 32

/-- `b0:b1`, the 16-bit value of two wire bytes, high byte first (R8, R54). -/
def half (hi lo : Byte) : Half := (hi.setWidth 16 <<< 8) ||| lo.setWidth 16

/-- REGHI = REGPAIR[31:16] (R22). -/
def State.reghi (s : State) : Half := splitHi s.regpair

/-- REGLO = REGPAIR[15:0] (R22). -/
def State.reglo (s : State) : Half := splitLo s.regpair

/-- A 16-bit field on the wire, high byte first (R54). -/
def bigEndian (v : Half) : List Byte := [hi8 v, lo8 v]

/-- A CRC on the wire, low byte first (R54, R101). -/
def crcBytes (c : Half) : List Byte := [lo8 c, hi8 c]

/-- The legality of the count N against a buffer's length register: `N ≤ 256` and `N ≤ len` (R74). -/
def countLegal (n len : Len) : Bool := decide (n.toNat ≤ Config.frameMax) && decide (n.toNat ≤ len.toNat)

/-- M = 0: `b0:b1:b2:b3` (R131). -/
def assembleFloat (b0 b1 b2 b3 : Byte) : Word := (b0 ++ b1 ++ b2 ++ b3).cast rfl

/-- M = 1: `join(b0:b1, b2:b3)`, the signed register-pair unpack (R131). -/
def assembleSigned (b0 b1 b2 b3 : Byte) : Word := join (half b0 b1) (half b2 b3)

/-- M = 2: `(b0<<24) | (b1<<16) | (b2<<8) | b3`, the unsigned byte assembly (R131). -/
def assembleUnsigned (b0 b1 b2 b3 : Byte) : Word :=
  (b0.setWidth 32 <<< 24) ||| (b1.setWidth 32 <<< 16) ||| (b2.setWidth 32 <<< 8) ||| b3.setWidth 32

/-- The word that mode `m` reads from four payload bytes, and the TAG it writes (R75, R131). The meaning of DEC.PAY has
turned `m = 3` away before it asks. -/
def assemble (m : BitVec 2) (b0 b1 b2 b3 : Byte) : Word × Tag :=
  if m = 0 then (assembleFloat b0 b1 b2 b3, .f32)
  else if m = 1 then (assembleSigned b0 b1 b2 b3, .i32)
  else (assembleUnsigned b0 b1 b2 b3, .u32)

end Sys2Proof.Machine
end

