-- ==== Sys2Proof/Machine/Flags.lean ====
section
/-! DEFINITION. The numeric codes of RESULT and TAG, and the STATUS word as the host reads it (spec/10_state.md R24, R27;
spec/60_exceptions.md R200). The block has no carry, zero, overflow or sign flag (R26). -/

namespace Sys2Proof.Machine

/-- The 4-bit code of an outcome (R200). -/
def ResultCode.code : ResultCode → BitVec 4
  | .success => 0x0
  | .timeout => 0x1
  | .short => 0x2
  | .crc => 0x3
  | .slave => 0x4
  | .func => 0x5
  | .addr => 0x6
  | .count => 0x7
  | .decode => 0x8
  | .none => 0xF

/-- The 2-bit value of TAG (R27). -/
def Tag.code : Tag → BitVec 2
  | .f32 => 0
  | .i32 => 1
  | .u32 => 2

/-- STATUS: [31:10] 0, [9] BUSERR, [8] ILLEGAL, [7:5] 0, [4] PV, [3:0] RESULT (R24). -/
def State.status (s : State) : Word :=
  (0#22 ++ BitVec.ofBool s.buserr ++ BitVec.ofBool s.illegal ++ 0#3 ++ BitVec.ofBool s.pv ++ s.result.code).cast rfl

/-- `x[PV] <- 0; x[BYTECOUNT] <- 0; x[PAYLEN] <- 0`: how both parsers begin (R32, R171, R173). -/
def State.clearPayload (s : State) : State := ((s.setPv false).setBytecount 0).setPaylen 0

end Sys2Proof.Machine
end

