-- ==== Sys2Proof/Machine/Codec.lean ====
section
/-! DEFINITION. The register codec commands (spec/42_codec.md R122–R131) and the number a host reads from VALUE under TAG
(R121). The block moves bits only: it does no arithmetic on VALUE (R27, R133). -/

namespace Sys2Proof.Machine

/-- ENC.x: `x[REGPAIR] <- VALUE; x[TAG] <- t` (R122–R124). -/
def encodeValue (t : Tag) (s : State) : State := (s.setRegpair s.value).setTag t

/-- DEC.x: `x[VALUE] <- join(REGHI, REGLO); x[TAG] <- t` (R126–R128). -/
def decodePair (t : Tag) (s : State) : State := (s.setValue (join s.reghi s.reglo)).setTag t

/-- ENC.F32: R122. -/
def execEncF32 (s : State) : Host.Outcome State Fault Refusal := .next (encodeValue .f32 s)

/-- ENC.I32: R123. -/
def execEncI32 (s : State) : Host.Outcome State Fault Refusal := .next (encodeValue .i32 s)

/-- ENC.U32: R124. -/
def execEncU32 (s : State) : Host.Outcome State Fault Refusal := .next (encodeValue .u32 s)

/-- DEC.F32: R126. -/
def execDecF32 (s : State) : Host.Outcome State Fault Refusal := .next (decodePair .f32 s)

/-- DEC.I32: R127. -/
def execDecI32 (s : State) : Host.Outcome State Fault Refusal := .next (decodePair .i32 s)

/-- DEC.U32: R128. -/
def execDecU32 (s : State) : Host.Outcome State Fault Refusal := .next (decodePair .u32 s)

/-- Whether value `k` of the payload decodes: PV is set, PAYLEN = 2·COUNT, and the four bytes are there (R131). -/
def decodable (k : Byte) (s : State) : Bool :=
  s.pv && decide (s.paylen.toNat = 2 * s.count.toNat) && decide (4 * k.toNat + 4 ≤ s.paylen.toNat)

/-- The word and tag that DEC.PAY reads at RX[3+4k … 6+4k] (R131). -/
def payloadValue (k : Byte) (m : BitVec 2) (s : State) : Word × Tag :=
  let i := 3 + 4 * k.toNat
  assemble m (s.rxAt i) (s.rxAt (i + 1)) (s.rxAt (i + 2)) (s.rxAt (i + 3))

/-- What a successful DEC.PAY leaves: TAG, VALUE, REGPAIR, and RESULT = SUCCESS (R131). -/
def storeDecoded (p : Word × Tag) (s : State) : State :=
  (((s.setTag p.2).setValue p.1).setRegpair p.1).setResult .success

/-- DEC.PAY K, M: R131. -/
def execDecPay (k : Byte) (m : BitVec 2) (s : State) : Host.Outcome State Fault Refusal :=
  if m = 3 then .next s.raiseIllegal
  else if decodable k s then .next (storeDecoded (payloadValue k m s) s)
  else .next (s.setResult .decode)

/-- `s32(v)` (R8). -/
def s32 (v : Word) : Int := if v.toNat < 2 ^ 31 then (v.toNat : Int) else (v.toNat : Int) - 2 ^ 32

/-- `u32(v)` (R8). -/
def u32 (v : Word) : Nat := v.toNat

/-- An IEEE-754 binary32 datum. `finite n m e` is (−1)^n · m · 2^e. -/
inductive Datum where
  | nan (negative : Bool) (fraction : BitVec 23)
  | infinity (negative : Bool)
  | finite (negative : Bool) (significand : Nat) (exponent : Int)
deriving DecidableEq, Repr

/-- The datum with bit pattern `v`: bit 31 the sign, bits [30:23] the exponent with bias 127, bits [22:0] the fraction
(R121). -/
def binary32 (v : Word) : Datum :=
  let negative := v.getLsbD 31
  let biased := (v.extractLsb' 23 8).toNat
  let fraction := v.extractLsb' 0 23
  if biased = 255 then if fraction = 0 then .infinity negative else .nan negative fraction
  else if biased = 0 then .finite negative fraction.toNat (-149)
  else .finite negative (2 ^ 23 + fraction.toNat) ((biased : Int) - 150)

/-- The number a host reads: a binary32 datum or an integer (R121). -/
inductive Reading where
  | float (d : Datum)
  | integer (n : Int)
deriving DecidableEq, Repr

/-- `sem(VALUE, TAG)` (R121). -/
def sem (v : Word) : Tag → Reading
  | .f32 => .float (binary32 v)
  | .i32 => .integer (s32 v)
  | .u32 => .integer (u32 v)

end Sys2Proof.Machine
end

