-- ==== Sys2Proof/Machine/Crc.lean ====
section
/-! DEFINITION. The CRC16 function (spec/41_crc.md R100) and the four CRC engine commands (R105–R108). -/

namespace Sys2Proof.Machine

/-- One shift: `if c[0] = 1: c <- (c >> 1) XOR 0xA001 else: c <- c >> 1` (R100). -/
def crcShift (c : Half) : Half :=
  if c.getLsbD 0 then (c >>> 1) ^^^ Config.crcPoly else c >>> 1

/-- `repeat n times` (R100). -/
def crcShifts : Nat → Half → Half
  | 0, c => c
  | n + 1, c => crcShifts n (crcShift c)

/-- `crc_step(c, b)` (R100). -/
def crcStep (c : Half) (b : Byte) : Half := crcShifts 8 (c ^^^ b.setWidth 16)

/-- The loop of `crc16` from a running value: each byte, first to last (R100). -/
def crcFrom : Half → List Byte → Half
  | c, [] => c
  | c, b :: bs => crcFrom (crcStep c b) bs

/-- `crc16(bytes)` (R100). -/
def crc16 (bytes : List Byte) : Half := crcFrom Config.crcInit bytes

/-- CRC.INIT: R105. -/
def execCrcInit (s : State) : Host.Outcome State Fault Refusal := .next (s.setCrc Config.crcInit)

/-- CRC.BYTE B: R106. -/
def execCrcByte (b : Byte) (s : State) : Host.Outcome State Fault Refusal := .next (s.setCrc (crcStep s.crc b))

/-- CRC.TX N: R107. -/
def execCrcTx (n : Len) (s : State) : Host.Outcome State Fault Refusal :=
  if countLegal n s.txlen then .next (s.setCrc (crc16 (s.txBytes 0 n.toNat))) else .next s.raiseIllegal

/-- CRC.RX N: R108. -/
def execCrcRx (n : Len) (s : State) : Host.Outcome State Fault Refusal :=
  if countLegal n s.rxlen then .next (s.setCrc (crc16 (s.rxBytes 0 n.toNat))) else .next s.raiseIllegal

end Sys2Proof.Machine
end

