-- ==== Sys2Proof/Machine/FrameBuild.lean ====
section
/-! DEFINITION. The frame builder commands (spec/43_frame_build.md R150–R153). Neither validates its operands (R150). -/

namespace Sys2Proof.Machine

/-- The six bytes of a read request before its CRC (R151). -/
def readRequest (s : State) : List Byte :=
  [s.slave, Config.fcRead] ++ bigEndian s.addr ++ bigEndian s.count

/-- The eleven bytes of a write request before its CRC (R153). COUNT is not read. -/
def writeRequest (s : State) : List Byte :=
  [s.slave, Config.fcWrite] ++ bigEndian s.addr ++ bigEndian Config.wrCount ++ [Config.wrByteCount]
    ++ bigEndian s.reghi ++ bigEndian s.reglo

/-- Append the CRC, low byte first, store the frame from TX[0], and leave the CRC in CRC and the length in TXLEN
(R151, R153). TX past the frame keeps its contents (R29). -/
def buildFrame (f : List Byte) (len : Len) (s : State) : State :=
  let c := crc16 f
  ((s.setTx (s.tx.writeBytes 0 (f ++ crcBytes c))).setTxlen len).setCrc c

/-- BLD.RD: R151. -/
def execBldRd (s : State) : Host.Outcome State Fault Refusal := .next (buildFrame (readRequest s) 8 s)

/-- BLD.WR: R153. -/
def execBldWr (s : State) : Host.Outcome State Fault Refusal := .next (buildFrame (writeRequest s) 13 s)

end Sys2Proof.Machine
end

