-- ==== Sys2Proof/Machine/FrameParse.lean ====
section
/-! DEFINITION. The frame validator and parser commands (spec/44_frame_parse.md R170–R173). -/

namespace Sys2Proof.Machine

/-- `minlen` of step 2 (R170): for a read with COUNT = 2 `RD_MIN_LEN_SINGLE`, for any other read 5, for a write 6. -/
def minLen (fc : Byte) (s : State) : Nat :=
  if fc = Config.fcRead then
    if s.count = 2 then s.params.rdMinLenSingle.bytes else Config.rdMinLen
  else Config.wrMinLen

/-- `validate(fc)`: steps 1 to 5 in order, stopping at the first that fails (R170). `none` is OK. -/
def validate (fc : Byte) (s : State) : Option ResultCode :=
  let L := s.rxlen.toNat
  let c := crc16 (s.rxBytes 0 (L - 2))
  if L = 0 then some .timeout
  else if L < minLen fc s then some .short
  else if s.rxAt (L - 2) ≠ lo8 c ∨ s.rxAt (L - 1) ≠ hi8 c then some .crc
  else if s.rxAt 0 ≠ s.slave then some .slave
  else if s.rxAt 1 ≠ fc then some .func
  else none

/-- Step 7: BYTECOUNT = RX[2], PAYLEN = the length of the clamped slice `response[3 : 3+byteCount]`, PV = 1 (R9, R171). -/
def extractPayload (s : State) : State :=
  let bc := s.rxAt 2
  ((s.setBytecount bc).setPaylen (BitVec.ofNat 9 (min bc.toNat (s.rxlen.toNat - 3)))).setPv true

/-- Step 6: the echoed address, then the echoed count, which is compared with the constant 2 (R173). `none` is OK. -/
def checkEcho (s : State) : Option ResultCode :=
  if half (s.rxAt 2) (s.rxAt 3) ≠ s.addr then some .addr
  else if half (s.rxAt 4) (s.rxAt 5) ≠ Config.wrCount then some .count
  else none

/-- PRS.RD: R171. A failure leaves PV, BYTECOUNT and PAYLEN at 0; on success step 7 writes all three again, and the last
write is the value left (R11). -/
def execPrsRd (s : State) : Host.Outcome State Fault Refusal :=
  match validate Config.fcRead s with
  | some r => .next (s.clearPayload.setResult r)
  | none => .next ((extractPayload s).setResult .success)

/-- PRS.WR: R173. -/
def execPrsWr (s : State) : Host.Outcome State Fault Refusal :=
  match validate Config.fcWrite s with
  | some r => .next (s.clearPayload.setResult r)
  | none =>
    match checkEcho s with
    | some r => .next (s.clearPayload.setResult r)
    | none => .next (s.clearPayload.setResult .success)

end Sys2Proof.Machine
end

