-- ==== Sys2Proof/Machine/Dispatch.lean ====
section
/-! DEFINITION. One arm per command of spec/opcode_table.json. -/

namespace Sys2Proof.Machine

/-- What a command does to the state. -/
def exec (i : Instr) (s : State) : Host.Outcome State Fault Refusal :=
  match i with
  | .crcInit => Sys2Proof.Machine.execCrcInit s
  | .crcByte b => Sys2Proof.Machine.execCrcByte b s
  | .crcTx n => Sys2Proof.Machine.execCrcTx n s
  | .crcRx n => Sys2Proof.Machine.execCrcRx n s
  | .encF32 => Sys2Proof.Machine.execEncF32 s
  | .encI32 => Sys2Proof.Machine.execEncI32 s
  | .encU32 => Sys2Proof.Machine.execEncU32 s
  | .decF32 => Sys2Proof.Machine.execDecF32 s
  | .decI32 => Sys2Proof.Machine.execDecI32 s
  | .decU32 => Sys2Proof.Machine.execDecU32 s
  | .decPay k m => Sys2Proof.Machine.execDecPay k m s
  | .bldRd => Sys2Proof.Machine.execBldRd s
  | .bldWr => Sys2Proof.Machine.execBldWr s
  | .prsRd => Sys2Proof.Machine.execPrsRd s
  | .prsWr => Sys2Proof.Machine.execPrsWr s

end Sys2Proof.Machine
end

