-- ==== Sys2Proof/Machine/Bus.lean ====
section
/-! DEFINITION. The register window: the register map (spec/10_state.md R21), the host accesses MemRead and MemWrite
(spec/20_memory.md R51), illegal accesses (R53), and the issue of a command by a write to CMD (spec/30_encoding.md R70).
-/

namespace Sys2Proof.Machine

/-- What a legal offset names (R21). -/
inductive Target where
  | cmd
  | status
  | crc
  | slave
  | addr
  | count
  | value
  | regpair
  | tag
  | txlen
  | rxlen
  | bytecount
  | paylen
  | txbuf (i : Fin 256)
  | rxbuf (i : Fin 256)
deriving DecidableEq, Repr

/-- The offset of each register and buffer entry in the window (R21). -/
def Target.offset : Target → Nat
  | .cmd => 0x000
  | .status => 0x004
  | .crc => 0x008
  | .slave => 0x00C
  | .addr => 0x010
  | .count => 0x014
  | .value => 0x018
  | .regpair => 0x01C
  | .tag => 0x020
  | .txlen => 0x024
  | .rxlen => 0x028
  | .bytecount => 0x02C
  | .paylen => 0x030
  | .txbuf i => 0x400 + 4 * i.val
  | .rxbuf i => 0x800 + 4 * i.val

/-- The registers below the buffers, as rows of the map (R21). -/
def Target.registers : List Target :=
  [.cmd, .status, .crc, .slave, .addr, .count, .value, .regpair, .tag, .txlen, .rxlen, .bytecount, .paylen]

/-- What the offset names, if it is a multiple of 4 and not reserved (R21, R53). -/
def Target.ofOffset (off : Nat) : Option Target :=
  if off % 4 ≠ 0 then none
  else if off < 0x400 then Target.registers.find? (fun t => t.offset == off)
  else if off < 0x800 then some (.txbuf (Fin.ofNat 256 ((off - 0x400) / 4)))
  else if off < 0xC00 then some (.rxbuf (Fin.ofNat 256 ((off - 0x800) / 4)))
  else none

/-- The offset of a host address in the register window, if the address is in it (R50). -/
def State.windowOffset (s : State) (addr : Nat) : Option Nat :=
  if s.params.blockBase ≤ addr ∧ addr < s.params.blockBase + Config.regWindow then some (addr - s.params.blockBase)
  else none

/-- What a host access reaches: nothing of the block, an illegal access (R53), or a register or buffer entry (R51). -/
inductive Reached where
  | outside
  | illegal
  | target (t : Target)
deriving DecidableEq, Repr

/-- A legal access is 32 bits wide, at an offset that is a multiple of 4 and names something (R51, R53). -/
def State.reach (s : State) (a : Access) : Reached :=
  match s.windowOffset a.addr with
  | none => .outside
  | some off =>
    if a.bits = 32 then
      match Target.ofOffset off with
      | some t => .target t
      | none => .illegal
    else .illegal

/-- MemRead: the implemented bits, zero-extended; CMD reads as 0 (R21, R51). -/
def memRead (t : Target) (s : State) : Word :=
  match t with
  | .cmd => 0
  | .status => s.status
  | .crc => s.crc.setWidth 32
  | .slave => s.slave.setWidth 32
  | .addr => s.addr.setWidth 32
  | .count => s.count.setWidth 32
  | .value => s.value
  | .regpair => s.regpair
  | .tag => s.tag.code.setWidth 32
  | .txlen => s.txlen.setWidth 32
  | .rxlen => s.rxlen.setWidth 32
  | .bytecount => s.bytecount.setWidth 32
  | .paylen => s.paylen.setWidth 32
  | .txbuf i => (s.txAt i.val).setWidth 32
  | .rxbuf i => (s.rxAt i.val).setWidth 32

/-- A write of `w` to CMD issues the command `w`: decode it and perform it, or raise ILLEGAL (R70, R203). -/
def issue (w : Word) (s : State) : Host.Outcome State Fault Refusal :=
  match decode w with
  | .ok i => exec i s
  | .error _ => .next s.raiseIllegal

/-- `x[RXLEN] <- min(w, 256); PV <- 0` (R30, R31, R51). -/
def writeRxlen (w : Word) (s : State) : State :=
  (s.setRxlen (BitVec.ofNat 9 (min w.toNat Config.frameMax))).setPv false

/-- `RX[i] <- w[7:0]; PV <- 0` (R30, R51). -/
def writeRxByte (i : Nat) (w : Word) (s : State) : State :=
  (s.setRx (s.rx.write i (w.setWidth 8))).setPv false

/-- MemWrite (R51): CMD starts a command; read-only registers and TXBUF ignore the write; RXLEN and RXBUF clear PV; the
operand registers keep their implemented bits. -/
def memWrite (t : Target) (w : Word) (s : State) : Host.Outcome State Fault Refusal :=
  match t with
  | .cmd => issue w s
  | .status => .next s
  | .crc => .next (s.setCrc (w.setWidth 16))
  | .slave => .next (s.setSlave (w.setWidth 8))
  | .addr => .next (s.setAddr (w.setWidth 16))
  | .count => .next (s.setCount (w.setWidth 16))
  | .value => .next (s.setValue w)
  | .regpair => .next (s.setRegpair w)
  | .tag => .next s
  | .txlen => .next s
  | .rxlen => .next (writeRxlen w s)
  | .bytecount => .next s
  | .paylen => .next s
  | .txbuf _ => .next s
  | .rxbuf i => .next (writeRxByte i.val w s)

/-- An illegal access: BUSERR, and a read returns 0 (R53, R204). -/
def illegalAccess (k : AccessKind) (s : State) : State :=
  match k with
  | .read => s.raiseBuserr.pushRead 0
  | .write _ => s.raiseBuserr

/-- A legal access to `t` (R51, R52). -/
def legalAccess (t : Target) (k : AccessKind) (s : State) : Host.Outcome State Fault Refusal :=
  match k with
  | .read => .next (s.pushRead (memRead t s))
  | .write w => memWrite t w s

/-- One host access. While the reset input is asserted the block accepts none (R240); an access outside the window does
not reach the block (R50). -/
def hostAccess (a : Access) (s : State) : Host.Outcome State Fault Refusal :=
  if s.inReset then .next s
  else
    match s.reach a with
    | .outside => .next s
    | .illegal => .next (illegalAccess a.kind s)
    | .target t => legalAccess t a.kind s

/-- The host access that writes `w` to CMD (R70). -/
def cmdWrite (p : Params) (w : Word) : Event :=
  .access { addr := p.blockBase + Target.cmd.offset, bits := 32, kind := .write w }

/-- What the next event does: a host access, or a change of the reset line. -/
def perform (e : Event) (s : State) : Host.Outcome State Fault Refusal :=
  match e with
  | .access a => hostAccess a s
  | .resetLine b => .next (s.driveReset b)

end Sys2Proof.Machine
end

