-- ==== Sys2Proof/Machine/Step.lean ====
section
/-! DEFINITION. One step of the machine: the next event from outside is taken and performed whole, before the one after
it (spec/00_scope.md R11; spec/20_memory.md R61). The block has no program counter and fetches nothing: the host's
sequence of accesses plays the part of a program (spec/10_state.md R33). -/

namespace Sys2Proof.Machine

/-- One step. With no event to come the block is idle: it has no sequencer of its own (R20). -/
def step (s : State) : Host.Outcome State Fault Refusal :=
  match s.pending with
  | [] => .next s
  | e :: rest => perform e (s.setPending rest)

/-- `s` with a write of the command word to CMD as the next event, and the reset input released, so that the next step
issues that word. The bits above `nbits` are 0. -/
def State.withFetchWord (s : State) (nbits w : Nat) : State :=
  (s.setInReset false).setPending (cmdWrite s.params (BitVec.ofNat 32 (w % 2 ^ nbits)) :: s.pending)

end Sys2Proof.Machine
end

