-- ==== Sys2Proof/Machine/HostProgram.lean ====
section
/-! DEFINITION. Host programs: the notation of spec/30_encoding.md R79, the pseudo-instructions of R80, and the block's
share of one transaction (spec/60_exceptions.md R213), each as the list of host accesses it stands for. The transport
and the transaction orchestrator are outside the block (spec/00_scope.md R5). -/

namespace Sys2Proof.Machine

/-- One line of a host program: a register or buffer write, a read, or a command (R79). -/
inductive HostLine where
  | wr (t : Target) (imm : Word)
  | rd (t : Target)
  | cmd (i : Instr)
deriving DecidableEq, Repr

/-- The host access that a line stands for (R79). -/
def HostLine.event (p : Params) : HostLine → Event
  | .wr t imm => .access { addr := p.blockBase + t.offset, bits := 32, kind := .write imm }
  | .rd t => .access { addr := p.blockBase + t.offset, bits := 32, kind := .read }
  | .cmd i => cmdWrite p (encode i)

/-- `wr RXBUF[i], b ; …` from index `i` on (R80). -/
def loadBytes : Nat → List Byte → List HostLine
  | _, [] => []
  | i, b :: bs => .wr (.rxbuf (Fin.ofNat 256 i)) (b.setWidth 32) :: loadBytes (i + 1) bs

/-- `loadrx b0 … b(n-1)` (R80). At most 256 bytes can be presented (R213). -/
def loadrx (bytes : List Byte) : List HostLine :=
  loadBytes 0 bytes ++ [.wr .rxlen (BitVec.ofNat 32 bytes.length)]

/-- `crc16 b0 … b(n-1)` (R80). -/
def crc16Lines (bytes : List Byte) : List HostLine := .cmd .crcInit :: bytes.map (fun b => .cmd (.crcByte b))

/-- `rd TXBUF[i] ; …`, `n` of them (R80). -/
def readBytes : Nat → Nat → List HostLine
  | _, 0 => []
  | i, n + 1 => .rd (.txbuf (Fin.ofNat 256 i)) :: readBytes (i + 1) n

/-- `readtx` for a frame of `n` bytes, where `n` is the TXLEN its first line reads (R80). -/
def readtx (n : Nat) : List HostLine := .rd .txlen :: readBytes 0 n

/-- `encf v` (R80). -/
def encf (v : Word) : List HostLine := [.wr .value v, .cmd .encF32]

/-- `readreq s, a, c` (R80). -/
def readreq (s : Byte) (a c : Half) : List HostLine :=
  [.wr .slave (s.setWidth 32), .wr .addr (a.setWidth 32), .wr .count (c.setWidth 32), .cmd .bldRd]

/-- `writereq s, a, hi, lo` (R80). -/
def writereq (s : Byte) (a hi lo : Half) : List HostLine :=
  [.wr .slave (s.setWidth 32), .wr .addr (a.setWidth 32), .wr .regpair (join hi lo), .cmd .bldWr]

/-- Steps 5 to 7 of a read transaction, after the transport has delivered `response`: load it, validate it, read STATUS,
and, as the host does on SUCCESS only, decode value `k` in mode `m` and read VALUE and TAG (R213). -/
def presentRead (response : List Byte) : List HostLine := loadrx response ++ [.cmd .prsRd, .rd .status]

/-- Step 7 of a read transaction for one value (R213). -/
def decodeLines (k : Byte) (m : BitVec 2) : List HostLine := [.cmd (.decPay k m), .rd .value, .rd .tag]

/-- Steps 5 and 6 of a write transaction (R213). -/
def presentWrite (response : List Byte) : List HostLine := loadrx response ++ [.cmd .prsWr, .rd .status]

/-- The state with a host program still to be performed. -/
def State.withProgram (s : State) (lines : List HostLine) : State :=
  s.setPending (lines.map (HostLine.event s.params))

end Sys2Proof.Machine
end

