-- ==== Sys2Proof/Safety.lean ====
section
/-! DEFINITION. The terms that claims use: the invariant of the block, what a correct run has not raised, and the operand
ranges that the host owes (spec/60_exceptions.md R212). -/

namespace Sys2Proof.Machine

/-- A frame ends in the CRC of the bytes before its last two, low byte first (R101). -/
def endsInItsCrc (f : List Byte) : Prop := ∃ g, f = g ++ crcBytes (crc16 g)

/-- The buffers are in canonical form, and the length registers name bytes that exist (R21, R29, R31). -/
def State.BuffersOk (s : State) : Prop :=
  s.tx.wf = true ∧ s.rx.wf = true ∧ s.txlen.toNat ≤ Config.frameMax ∧ s.rxlen.toNat ≤ Config.frameMax

/-- TXBUF holds no frame yet, a read request, or a write request; a request carries its own CRC (R29, R151, R153). -/
def State.RequestOk (s : State) : Prop :=
  s.txlen = 0 ∨
  (s.txlen = 8 ∧ s.txAt 1 = 0x03 ∧ endsInItsCrc (s.txBytes 0 8)) ∨
  (s.txlen = 13 ∧ s.txAt 1 = 0x10 ∧ s.txAt 4 = 0x00 ∧ s.txAt 5 = 0x02 ∧ s.txAt 6 = 0x04 ∧
    endsInItsCrc (s.txBytes 0 13))

/-- While PV is set, RXBUF holds the frame that PRS.RD accepted, BYTECOUNT and PAYLEN describe its payload, and RESULT is
the outcome of that PRS.RD or of a DEC.PAY since (R24, R30, R32, R170, R171). -/
def State.PayloadOk (s : State) : Prop :=
  s.pv = true →
    5 ≤ s.rxlen.toNat ∧ endsInItsCrc (s.rxBytes 0 s.rxlen.toNat) ∧ s.rxAt 1 = 0x03 ∧
    s.bytecount = s.rxAt 2 ∧ s.paylen.toNat = min s.bytecount.toNat (s.rxlen.toNat - 3) ∧
    (s.result = .success ∨ s.result = .decode)

/-- The invariant of the block. -/
def State.Inv (s : State) : Prop :=
  s.BuffersOk ∧ s.RequestOk ∧ s.PayloadOk ∧ s.paylen.toNat ≤ s.bytecount.toNat

/-- No fault flag is set: the premise that D9 and D10 ask of a claim about a well-behaved host. -/
def State.NoFault (s : State) : Prop := s.illegal = false ∧ s.buserr = false

/-- The host's duties before it builds a read request for `n` values (R212). -/
def State.ReadDuties (s : State) (n : Nat) : Prop :=
  1 ≤ s.slave.toNat ∧ s.slave.toNat ≤ 247 ∧ s.addr.toNat + 1 ≤ 65535 ∧ 1 ≤ n ∧ s.count.toNat = 2 * n

/-- A 32-bit host read at an offset of the window (R51). -/
def readEvent (p : Params) (off : Nat) : Event :=
  .access { addr := p.blockBase + off, bits := 32, kind := .read }

/-- A 32-bit host write of `w` at an offset of the window (R51). -/
def writeEvent (p : Params) (off : Nat) (w : Word) : Event :=
  .access { addr := p.blockBase + off, bits := 32, kind := .write w }

/-- What lies outside the block is the same in both states: the events to come, the words already read, the parameters,
the level of the reset input and the number of the reset. -/
def State.sameOutside (s t : State) : Prop :=
  t.pending = s.pending ∧ t.reads = s.reads ∧ t.params = s.params ∧ t.inReset = s.inReset ∧ t.drawEpoch = s.drawEpoch

end Sys2Proof.Machine
end

