-- ==== Sys2Proof/Certificates/Slice0/Obligations.lean ====
section
/-! DEFINITION. The statements for the provers. Each docstring names the rule of spec/ that it formalises. -/

open Sys2Proof Sys2Proof.Machine

/-! ### CRC engine (spec/41_crc.md) -/

/-- R100: `crc_step` is an XOR and eight conditional shifts, and `crc16` runs it over the bytes from 0xFFFF. -/
def Obligations.CrcFunctionIsShiftAndXor : Prop :=
  (∀ (c : Half) (b : Byte), crcStep c b =
    (fun c : Half => if c.getLsbD 0 then (c >>> 1) ^^^ 0xA001#16 else c >>> 1)^[8] (c ^^^ b.setWidth 16)) ∧
  (∀ bytes : List Byte, crc16 bytes = bytes.foldl crcStep 0xFFFF#16)

/-- R104: appending its CRC, low byte first, to any byte sequence gives a sequence whose CRC is 0. -/
def Obligations.CrcResidueIsZero : Prop :=
  ∀ f : List Byte, crc16 (f ++ [lo8 (crc16 f), hi8 (crc16 f)]) = 0

/-- R105: CRC.INIT writes 0xFFFF to CRC and changes nothing else; of the words with OP 0x01 only 0x00000001 is legal. -/
def Obligations.CrcInitWritesInitialValue : Prop :=
  ∀ s : State,
    exec .crcInit s = .next { s with crc := 0xFFFF } ∧
    ∀ w : Word, w.extractLsb' 0 8 = 0x01 →
      issue w s = if w = 0x00000001 then .next { s with crc := 0xFFFF } else .next { s with illegal := true }

/-- R106: CRC.BYTE feeds one byte to the running CRC and changes nothing else; a word with OP 0x02 is legal iff its bits
31…16 are 0; CRC.INIT and then CRC.BYTE of each byte leaves the CRC of the sequence. -/
def Obligations.CrcByteFeedsOneByte : Prop :=
  (∀ (s : State) (b : Byte), exec (.crcByte b) s = .next { s with crc := crcStep s.crc b }) ∧
  (∀ (s : State) (w : Word), w.extractLsb' 0 8 = 0x02 →
    issue w s = if w.extractLsb' 16 16 = 0 then .next { s with crc := crcStep s.crc (w.extractLsb' 8 8) }
      else .next { s with illegal := true }) ∧
  (∀ (s : State) (bytes : List Byte), s.inReset = false →
    Host.Core.run Sys2Proof.core (bytes.length + 1) (s.withProgram (crc16Lines bytes)) =
      .next { s with crc := crc16 bytes, pending := [] })

/-- R107: CRC.TX writes the CRC of TX[0 : N] to CRC, or raises ILLEGAL when N > 256 or N > TXLEN; a word with OP 0x03 is
performed iff its reserved bits are 0 and its N passes; after BLD.RD, CRC.TX 6 gives the CRC that the builder appended
and CRC.TX 8 gives 0. -/
def Obligations.CrcTxCoversThePrefix : Prop :=
  (∀ (s : State) (n : Len), exec (.crcTx n) s =
    if n.toNat ≤ 256 ∧ n.toNat ≤ s.txlen.toNat then .next { s with crc := crc16 ((List.range n.toNat).map s.txAt) }
    else .next { s with illegal := true }) ∧
  (∀ (s : State) (w : Word), w.extractLsb' 0 8 = 0x03 →
    issue w s = if w.extractLsb' 25 7 = 0 ∧ w.extractLsb' 8 8 = 0 ∧ (w.extractLsb' 16 9).toNat ≤ 256 ∧
        (w.extractLsb' 16 9).toNat ≤ s.txlen.toNat
      then .next { s with crc := crc16 ((List.range (w.extractLsb' 16 9).toNat).map s.txAt) }
      else .next { s with illegal := true }) ∧
  (∀ s t : State, exec .bldRd s = .next t →
    exec (.crcTx 6) t = .next t ∧ exec (.crcTx 8) t = .next { t with crc := 0 } ∧
    exec (.crcTx 0) t = .next { t with crc := 0xFFFF })

/-- R108: CRC.RX writes the CRC of RX[0 : N] to CRC and leaves PV and everything else alone, or raises ILLEGAL when
N > 256 or N > RXLEN; a word with OP 0x04 is performed iff its reserved bits are 0 and its N passes. -/
def Obligations.CrcRxCoversThePrefix : Prop :=
  (∀ (s : State) (n : Len), exec (.crcRx n) s =
    if n.toNat ≤ 256 ∧ n.toNat ≤ s.rxlen.toNat then .next { s with crc := crc16 ((List.range n.toNat).map s.rxAt) }
    else .next { s with illegal := true }) ∧
  (∀ (s : State) (w : Word), w.extractLsb' 0 8 = 0x04 →
    issue w s = if w.extractLsb' 25 7 = 0 ∧ w.extractLsb' 8 8 = 0 ∧ (w.extractLsb' 16 9).toNat ≤ 256 ∧
        (w.extractLsb' 16 9).toNat ≤ s.rxlen.toNat
      then .next { s with crc := crc16 ((List.range (w.extractLsb' 16 9).toNat).map s.rxAt) }
      else .next { s with illegal := true })

/-! ### Register codec (spec/42_codec.md) -/

/-- R120: split and join are the two halves of a word and their concatenation, each the inverse of the other. -/
def Obligations.SplitAndJoinAreInverse : Prop :=
  (∀ v : Word, (splitHi v).toNat = v.toNat / 2 ^ 16 ∧ (splitLo v).toNat = v.toNat % 2 ^ 16) ∧
  (∀ hi lo : Half, (join hi lo).toNat = hi.toNat * 2 ^ 16 + lo.toNat) ∧
  (∀ v : Word, join (splitHi v) (splitLo v) = v) ∧
  (∀ hi lo : Half, splitHi (join hi lo) = hi ∧ splitLo (join hi lo) = lo)

/-- The number a host reads from VALUE under TAG (42_codec.md section 1): s32, u32, or the binary32 datum. That section
gives the fields of a binary32 pattern; which datum they denote is PRESUMED (notes/assumptions/16.md). -/
def Obligations.ValueReadsByItsTag : Prop :=
  ∀ v : Word,
    sem v .i32 = .integer (if v.toNat < 2 ^ 31 then (v.toNat : Int) else (v.toNat : Int) - 2 ^ 32) ∧
    sem v .u32 = .integer (v.toNat : Int) ∧
    sem v .f32 = .float (
      let negative := decide (2 ^ 31 ≤ v.toNat)
      let exponent : Nat := v.toNat / 2 ^ 23 % 2 ^ 8
      let fraction : Nat := v.toNat % 2 ^ 23
      if exponent = 255 then
        if fraction = 0 then .infinity negative else .nan negative (BitVec.ofNat 23 fraction)
      else if exponent = 0 then .finite negative fraction (-149)
      else .finite negative (2 ^ 23 + fraction) ((exponent : Int) - 127 - 23))

/-- R122, R123, R124: ENC.F32, ENC.I32 and ENC.U32 copy VALUE to REGPAIR and write TAG 0, 1 and 2, and change nothing
else, whatever the pattern; REGHI and REGLO are then the halves of VALUE; of the words with their OP only the bare OP is
legal. -/
def Obligations.EncodersCopyValueToRegpair : Prop :=
  ∀ s : State,
    exec .encF32 s = .next { s with regpair := s.value, tag := .f32 } ∧
    exec .encI32 s = .next { s with regpair := s.value, tag := .i32 } ∧
    exec .encU32 s = .next { s with regpair := s.value, tag := .u32 } ∧
    (∀ (i : Instr) (t : State), (i = .encF32 ∨ i = .encI32 ∨ i = .encU32) → exec i s = .next t →
      t.reghi = s.value.extractLsb' 16 16 ∧ t.reglo = s.value.extractLsb' 0 16) ∧
    (∀ w : Word, w.extractLsb' 0 8 = 0x10 →
      issue w s = if w = 0x00000010 then exec .encF32 s else .next { s with illegal := true }) ∧
    (∀ w : Word, w.extractLsb' 0 8 = 0x11 →
      issue w s = if w = 0x00000011 then exec .encI32 s else .next { s with illegal := true }) ∧
    (∀ w : Word, w.extractLsb' 0 8 = 0x12 →
      issue w s = if w = 0x00000012 then exec .encU32 s else .next { s with illegal := true })

/-- R126, R127, R128: DEC.F32, DEC.I32 and DEC.U32 copy REGPAIR to VALUE, bit for bit, and write TAG 0, 1 and 2, and
change nothing else; of the words with their OP only the bare OP is legal; and the corner cases of the integer readings. -/
def Obligations.DecodersCopyRegpairToValue : Prop :=
  (∀ s : State,
    exec .decF32 s = .next { s with value := s.regpair, tag := .f32 } ∧
    exec .decI32 s = .next { s with value := s.regpair, tag := .i32 } ∧
    exec .decU32 s = .next { s with value := s.regpair, tag := .u32 } ∧
    (∀ w : Word, w.extractLsb' 0 8 = 0x18 →
      issue w s = if w = 0x00000018 then exec .decF32 s else .next { s with illegal := true }) ∧
    (∀ w : Word, w.extractLsb' 0 8 = 0x19 →
      issue w s = if w = 0x00000019 then exec .decI32 s else .next { s with illegal := true }) ∧
    (∀ w : Word, w.extractLsb' 0 8 = 0x1A →
      issue w s = if w = 0x0000001A then exec .decU32 s else .next { s with illegal := true })) ∧
  sem 0x80000000 .i32 = .integer (-2147483648) ∧ sem 0xFFFFFFFF .i32 = .integer (-1) ∧
  sem 0xFFFFFF9C .i32 = .integer (-100) ∧ sem 0xFFFFFF9C .u32 = .integer 4294967196 ∧
  sem 0x00000064 .u32 = .integer 100

/-- R129: encoding a value and decoding it again leaves the same bits in VALUE, for each of the three kinds. -/
def Obligations.CodecRoundTripsBitForBit : Prop :=
  ∀ s : State,
    (∃ t u, exec .encF32 s = .next t ∧ exec .decF32 t = .next u ∧ u.value = s.value ∧ u.tag = .f32) ∧
    (∃ t u, exec .encI32 s = .next t ∧ exec .decI32 t = .next u ∧ u.value = s.value ∧ u.tag = .i32) ∧
    (∃ t u, exec .encU32 s = .next t ∧ exec .decU32 t = .next u ∧ u.value = s.value ∧ u.tag = .u32)

/-- R130: the unsigned byte assembly and the signed register-pair unpack give the same pattern, and so does the float's;
DEC.PAY in the two integer modes leaves states that differ in TAG only, which then tells the mode. -/
def Obligations.IntegerReadPathsAgree : Prop :=
  (∀ b0 b1 b2 b3 : Byte,
    assembleUnsigned b0 b1 b2 b3 = assembleSigned b0 b1 b2 b3 ∧
    assembleFloat b0 b1 b2 b3 = assembleSigned b0 b1 b2 b3 ∧
    (assembleUnsigned b0 b1 b2 b3).toNat =
      b0.toNat * 2 ^ 24 + b1.toNat * 2 ^ 16 + b2.toNat * 2 ^ 8 + b3.toNat) ∧
  (∀ (s : State) (k : Byte), ∃ t u, exec (.decPay k 1) s = .next t ∧ exec (.decPay k 2) s = .next u ∧
    { u with tag := t.tag } = t ∧ (t.result = .success → t.tag = .i32 ∧ u.tag = .u32))

/-- R131: DEC.PAY K, M, whole. M = 3 raises ILLEGAL; a value that is not available gives DECODE and writes nothing else;
otherwise VALUE and REGPAIR take the four bytes at RX[3+4K], first byte highest, TAG takes the mode, and RESULT is
SUCCESS. A word with OP 0x1C is performed iff bits 31…18 are 0 and M ≠ 3. Under the invariant the bytes read lie in the
response. -/
def Obligations.DecPayDecodesOneValue : Prop :=
  (∀ (s : State) (k : Byte), exec (.decPay k 3) s = .next { s with illegal := true }) ∧
  (∀ (s : State) (k : Byte) (m : BitVec 2), m ≠ 3 →
    (s.pv = false ∨ s.paylen.toNat ≠ 2 * s.count.toNat ∨ 4 * k.toNat + 4 > s.paylen.toNat) →
    exec (.decPay k m) s = .next { s with result := .decode }) ∧
  (∀ (s : State) (k : Byte) (m : BitVec 2) (v : Word), m ≠ 3 →
    s.pv = true → s.paylen.toNat = 2 * s.count.toNat → 4 * k.toNat + 4 ≤ s.paylen.toNat →
    v.toNat = (s.rxAt (3 + 4 * k.toNat)).toNat * 2 ^ 24 + (s.rxAt (4 + 4 * k.toNat)).toNat * 2 ^ 16 +
      (s.rxAt (5 + 4 * k.toNat)).toNat * 2 ^ 8 + (s.rxAt (6 + 4 * k.toNat)).toNat →
    exec (.decPay k m) s = .next { s with
      tag := if m = 0 then .f32 else if m = 1 then .i32 else .u32
      value := v
      regpair := v
      result := .success }) ∧
  (∀ (s : State) (w : Word), w.extractLsb' 0 8 = 0x1C →
    issue w s = if w.extractLsb' 18 14 = 0 ∧ w.extractLsb' 16 2 ≠ 3
      then exec (.decPay (w.extractLsb' 8 8) (w.extractLsb' 16 2)) s
      else .next { s with illegal := true }) ∧
  (∀ (s : State) (k : Byte), s.Inv → s.pv = true → 4 * k.toNat + 4 ≤ s.paylen.toNat →
    3 + 4 * k.toNat + 3 < s.rxlen.toNat)

/-- R132: a DEC.PAY that gives DECODE changes RESULT only; PV stays, and every DEC.PAY after it does what it would have
done without it. -/
def Obligations.DecodeOutcomeIsLocal : Prop :=
  ∀ (s t : State) (k : Byte) (m : BitVec 2), m ≠ 3 → exec (.decPay k m) s = .next t → t.result = .decode →
    t = { s with result := .decode } ∧ t.pv = s.pv ∧
    ∀ (k' : Byte) (m' : BitVec 2), m' ≠ 3 → exec (.decPay k' m') t = exec (.decPay k' m') s

/-! ### Frame builder (spec/43_frame_build.md) -/

/-- R151: BLD.RD stores the eight bytes of the request, its CRC low byte first, leaves TXLEN = 8 and the CRC in CRC, keeps
TX[8 … 255] and changes nothing else, for every value of SLAVE, ADDR and COUNT; of the words with OP 0x20 only the bare
OP is legal. -/
def Obligations.BldRdBuildsTheReadRequest : Prop :=
  (∀ s : State, ∃ (t : State) (c : Half),
    c = crc16 [s.slave, 0x03, s.addr.extractLsb' 8 8, s.addr.extractLsb' 0 8,
      s.count.extractLsb' 8 8, s.count.extractLsb' 0 8] ∧
    exec .bldRd s = .next t ∧
    (List.range 8).map t.txAt = [s.slave, 0x03, s.addr.extractLsb' 8 8, s.addr.extractLsb' 0 8,
      s.count.extractLsb' 8 8, s.count.extractLsb' 0 8, c.extractLsb' 0 8, c.extractLsb' 8 8] ∧
    t.txlen = 8 ∧ t.crc = c ∧ (∀ i, 8 ≤ i → t.txAt i = s.txAt i) ∧
    { t with tx := s.tx, txlen := s.txlen, crc := s.crc } = s) ∧
  (∀ (s : State) (w : Word), w.extractLsb' 0 8 = 0x20 →
    issue w s = if w = 0x00000020 then exec .bldRd s else .next { s with illegal := true })

/-- R153: BLD.WR stores the thirteen bytes of the request with register count 2, byte count 4 and the bytes of REGPAIR,
whatever COUNT holds, leaves TXLEN = 13 and the CRC in CRC, keeps TX[13 … 255] and changes nothing else; of the words
with OP 0x21 only the bare OP is legal. -/
def Obligations.BldWrBuildsTheWriteRequest : Prop :=
  (∀ s : State, ∃ (t : State) (c : Half),
    c = crc16 [s.slave, 0x10, s.addr.extractLsb' 8 8, s.addr.extractLsb' 0 8, 0x00, 0x02, 0x04,
      s.regpair.extractLsb' 24 8, s.regpair.extractLsb' 16 8, s.regpair.extractLsb' 8 8, s.regpair.extractLsb' 0 8] ∧
    exec .bldWr s = .next t ∧
    (List.range 13).map t.txAt = [s.slave, 0x10, s.addr.extractLsb' 8 8, s.addr.extractLsb' 0 8, 0x00, 0x02, 0x04,
      s.regpair.extractLsb' 24 8, s.regpair.extractLsb' 16 8, s.regpair.extractLsb' 8 8, s.regpair.extractLsb' 0 8,
      c.extractLsb' 0 8, c.extractLsb' 8 8] ∧
    t.txlen = 13 ∧ t.crc = c ∧ (∀ i, 13 ≤ i → t.txAt i = s.txAt i) ∧
    { t with tx := s.tx, txlen := s.txlen, crc := s.crc } = s) ∧
  (∀ (s : State) (w : Word), w.extractLsb' 0 8 = 0x21 →
    issue w s = if w = 0x00000021 then exec .bldWr s else .next { s with illegal := true })

/-- 43_frame_build.md section 1: the builders check no operand. For every state, hence also for operands that break the
ranges the host owes, a build raises no fault and no outcome, and its frame ends in its own CRC. -/
def Obligations.BuildersNeverRejectOperands : Prop :=
  ∀ (s : State) (i : Instr), (i = .bldRd ∨ i = .bldWr) →
    ∃ t, exec i s = .next t ∧
      t.illegal = s.illegal ∧ t.buserr = s.buserr ∧ t.result = s.result ∧ t.pv = s.pv ∧
      endsInItsCrc (t.txBytes 0 t.txlen.toNat)

/-! ### Frame validator and parser (spec/44_frame_parse.md) -/

/-- R171: PRS.RD, whole: the checks in their order with the outcome of each, and on success BYTECOUNT = RX[2], PAYLEN = the
clamped slice length and PV = 1. Nothing else is written; of the words with OP 0x30 only the bare OP is legal. -/
def Obligations.PrsRdValidatesAReadResponse : Prop :=
  (∀ s : State,
    let L := s.rxlen.toNat
    let c := crc16 ((List.range (L - 2)).map s.rxAt)
    let failed := fun r : ResultCode => { s with pv := false, bytecount := 0, paylen := 0, result := r }
    exec .prsRd s = .next (
      if L = 0 then failed .timeout
      else if L < (if s.count = 2 then s.params.rdMinLenSingle.bytes else 5) then failed .short
      else if ¬ (s.rxAt (L - 2) = c.extractLsb' 0 8 ∧ s.rxAt (L - 1) = c.extractLsb' 8 8) then failed .crc
      else if s.rxAt 0 ≠ s.slave then failed .slave
      else if s.rxAt 1 ≠ 0x03 then failed .func
      else { s with
        pv := true
        bytecount := s.rxAt 2
        paylen := BitVec.ofNat 9 (min (s.rxAt 2).toNat (L - 3))
        result := .success })) ∧
  (∀ (s : State) (w : Word), w.extractLsb' 0 8 = 0x30 →
    issue w s = if w = 0x00000030 then exec .prsRd s else .next { s with illegal := true })

/-- R173: PRS.WR, whole: the checks in their order with the outcome of each, the echoed address before the echoed count,
which is compared with 2 and not with COUNT. PV, BYTECOUNT and PAYLEN are cleared, RESULT is written, and nothing else;
of the words with OP 0x31 only the bare OP is legal. -/
def Obligations.PrsWrValidatesAWriteResponse : Prop :=
  (∀ s : State,
    let L := s.rxlen.toNat
    let c := crc16 ((List.range (L - 2)).map s.rxAt)
    exec .prsWr s = .next { s with
      pv := false
      bytecount := 0
      paylen := 0
      result :=
        if L = 0 then .timeout
        else if L < 6 then .short
        else if ¬ (s.rxAt (L - 2) = c.extractLsb' 0 8 ∧ s.rxAt (L - 1) = c.extractLsb' 8 8) then .crc
        else if s.rxAt 0 ≠ s.slave then .slave
        else if s.rxAt 1 ≠ 0x10 then .func
        else if (s.rxAt 2).toNat * 256 + (s.rxAt 3).toNat ≠ s.addr.toNat then .addr
        else if (s.rxAt 4).toNat * 256 + (s.rxAt 5).toNat ≠ 2 then .count
        else .success }) ∧
  (∀ (s : State) (w : Word), w.extractLsb' 0 8 = 0x31 →
    issue w s = if w = 0x00000031 then exec .prsWr s else .next { s with illegal := true })

/-- R174, over the steps of R170 and R173: each parser writes one outcome, the first failing step in the order 1, 2, 3, 4,
5, then 6 (write), or SUCCESS. -/
def Obligations.ParserOutcomeIsFirstFailingStep : Prop :=
  ∀ s : State,
    let L := s.rxlen.toNat
    let badCrc : Bool := ¬ ([s.rxAt (L - 2), s.rxAt (L - 1)] = crcBytes (crc16 ((List.range (L - 2)).map s.rxAt)))
    let common := fun (minimum : Nat) (fc : Byte) =>
      [((L == 0), ResultCode.timeout), (decide (L < minimum), .short), (badCrc, .crc),
       (s.rxAt 0 != s.slave, .slave), (s.rxAt 1 != fc, .func)]
    let first := fun steps : List (Bool × ResultCode) => ((steps.find? (fun p => p.1)).map (fun p => p.2)).getD .success
    (∃ t, exec .prsRd s = .next t ∧
      t.result = first (common (if s.count = 2 then s.params.rdMinLenSingle.bytes else 5) 0x03)) ∧
    (∃ t, exec .prsWr s = .next t ∧
      t.result = first (common 6 0x10 ++
        [(half (s.rxAt 2) (s.rxAt 3) != s.addr, .addr), (half (s.rxAt 4) (s.rxAt 5) != 0x0002, .count)]))

/-- R175: a response that a parser has found to carry its CRC gives CRC after any one of its bits is flipped. -/
def Obligations.SingleBitFlipGivesCrc : Prop :=
  ∀ (s t : State) (i j : Nat), i < s.rxlen.toNat → j < 8 →
    let flipped := { s with rx := s.rx.write i (s.rxAt i ^^^ (1#8 <<< j)) }
    (exec .prsRd s = .next t → (t.result = .success ∨ t.result = .slave ∨ t.result = .func) →
      ∃ u, exec .prsRd flipped = .next u ∧ u.result = .crc) ∧
    (exec .prsWr s = .next t →
      (t.result = .success ∨ t.result = .slave ∨ t.result = .func ∨ t.result = .addr ∨ t.result = .count) →
      ∃ u, exec .prsWr flipped = .next u ∧ u.result = .crc)

/-- R176: a 5-byte exception response (function code with bit 7 set, CRC and slave right) gives SHORT for PRS.WR, SHORT
for PRS.RD with COUNT = 2 (under the default minimum 9), and FUNC for PRS.RD with any other COUNT. -/
def Obligations.ExceptionResponsesUseOrdinaryChecks : Prop :=
  ∀ s : State, s.rxlen = 5 → s.rxAt 0 = s.slave → (s.rxAt 1).getLsbD 7 = true → endsInItsCrc (s.rxBytes 0 5) →
    (∃ t, exec .prsWr s = .next t ∧ t.result = .short) ∧
    (s.count = 2 → s.params.rdMinLenSingle = .nine → ∃ t, exec .prsRd s = .next t ∧ t.result = .short) ∧
    (s.count ≠ 2 → ∃ t, exec .prsRd s = .next t ∧ t.result = .func)

/-- R177: the parsers always answer, and what they answer depends on no byte past the response; a response shorter than
the minimum is SHORT; a wrong slave byte is SLAVE though the CRC is valid. -/
def Obligations.ParsersReadOnlyTheResponse : Prop :=
  (∀ (s : State) (i : Instr) (m : Memory), (i = .prsRd ∨ i = .prsWr) →
    (∀ j, j < s.rxlen.toNat → ({ s with rx := m } : State).rxAt j = s.rxAt j) →
    ∃ t, exec i s = .next t ∧ exec i { s with rx := m } = .next { t with rx := m }) ∧
  (∀ s : State, 1 ≤ s.rxlen.toNat →
    (s.rxlen.toNat < (if s.count = 2 then s.params.rdMinLenSingle.bytes else 5) →
      ∃ t, exec .prsRd s = .next t ∧ t.result = .short) ∧
    (s.rxlen.toNat < 6 → ∃ t, exec .prsWr s = .next t ∧ t.result = .short)) ∧
  (∀ s : State, endsInItsCrc (s.rxBytes 0 s.rxlen.toNat) → s.rxAt 0 ≠ s.slave →
    ((if s.count = 2 then s.params.rdMinLenSingle.bytes else 5) ≤ s.rxlen.toNat →
      ∃ t, exec .prsRd s = .next t ∧ t.result = .slave) ∧
    (6 ≤ s.rxlen.toNat → ∃ t, exec .prsWr s = .next t ∧ t.result = .slave))

/-- R178: a step of the CRC with its own low byte leaves its high byte, so that the CRC of a frame without its last byte is
that byte; and when the first L bytes of an (L+1)-byte
response end in their own CRC, step 3 rejects it iff the last byte is not 0x00. -/
def Obligations.OneTrailingZeroIsAccepted : Prop :=
  (∀ c : Half, crcStep c (lo8 c) = (hi8 c).setWidth 16) ∧
  (∀ g : List Byte, crc16 (g ++ [lo8 (crc16 g)]) = (hi8 (crc16 g)).setWidth 16) ∧
  (∀ (s : State) (L : Nat), s.rxlen.toNat = L + 1 → endsInItsCrc (s.rxBytes 0 L) →
    ((if s.count = 2 then s.params.rdMinLenSingle.bytes else 5) ≤ L + 1 →
      ∃ t, exec .prsRd s = .next t ∧ (t.result = .crc ↔ s.rxAt L ≠ 0x00)) ∧
    (6 ≤ L + 1 → ∃ t, exec .prsWr s = .next t ∧ (t.result = .crc ↔ s.rxAt L ≠ 0x00)))

/-- A well-formed response to a read of N values, 4·N bytes of payload, is accepted, and DEC.PAY k then gives value k in
every mode (43_frame_build.md section 2, 44_frame_parse.md section 2, 42_codec.md section 2). -/
def Obligations.ReadResponseDeliversEveryValue : Prop :=
  ∀ (s : State) (vs : List Word),
    let body := [s.slave, 0x03, BitVec.ofNat 8 (4 * vs.length)] ++
      vs.flatMap (fun v => [v.extractLsb' 24 8, v.extractLsb' 16 8, v.extractLsb' 8 8, v.extractLsb' 0 8])
    4 * vs.length ≤ 251 → s.count.toNat = 2 * vs.length → s.rxlen.toNat = 4 * vs.length + 5 →
    s.rxBytes 0 (4 * vs.length + 5) = body ++ crcBytes (crc16 body) →
    ∃ t, exec .prsRd s = .next t ∧ t.result = .success ∧ t.pv = true ∧ t.bytecount.toNat = 4 * vs.length ∧
      t.paylen.toNat = 4 * vs.length ∧
      ∀ (k : Byte) (m : BitVec 2) (h : k.toNat < vs.length), m ≠ 3 →
        exec (.decPay k m) t = .next { t with
          tag := if m = 0 then .f32 else if m = 1 then .i32 else .u32
          value := vs[k.toNat]
          regpair := vs[k.toNat]
          result := .success }

/-- One read transaction, as the host performs it (60_exceptions.md section 5): build the request for N values, present a
well-formed response, validate it, read STATUS, decode value k and read VALUE and TAG. From a state with no fault, the
host reads TXLEN = 8, STATUS = SUCCESS with PV, value k and its tag, and no fault has been raised. That a host program is a
list of accesses which steps perform in order is the model's form (notes/assumptions/1.md and 15.md). -/
def Obligations.ReadTransactionDeliversTheValue : Prop :=
  ∀ (s : State) (slave : Byte) (address : Half) (vs : List Word) (k : Byte) (m : BitVec 2) (h : k.toNat < vs.length),
    s.inReset = false → s.NoFault → 4 * vs.length ≤ 251 → m ≠ 3 →
    let body := [slave, 0x03, BitVec.ofNat 8 (4 * vs.length)] ++
      vs.flatMap (fun v => [v.extractLsb' 24 8, v.extractLsb' 16 8, v.extractLsb' 8 8, v.extractLsb' 0 8])
    let lines := readreq slave address (BitVec.ofNat 16 (2 * vs.length)) ++ [.rd .txlen] ++
      presentRead (body ++ crcBytes (crc16 body)) ++ decodeLines k m
    ∃ t, Host.Core.run Sys2Proof.core lines.length (s.withProgram lines) = .next t ∧
      t.reads = (if m = 0 then 0#32 else if m = 1 then 1#32 else 2#32) :: vs[k.toNat] :: 0x00000010#32 ::
        8#32 :: s.reads ∧
      t.pending = [] ∧ t.NoFault

/-- The eight-byte echo of a write request is accepted, and the same echo with any other register count gives COUNT
(44_frame_parse.md section 3). -/
def Obligations.WriteEchoIsAccepted : Prop :=
  ∀ (s : State) (n : Half),
    let body := [s.slave, 0x10, s.addr.extractLsb' 8 8, s.addr.extractLsb' 0 8, n.extractLsb' 8 8, n.extractLsb' 0 8]
    s.rxlen = 8 → s.rxBytes 0 8 = body ++ crcBytes (crc16 body) →
    exec .prsWr s = .next { s with
      pv := false
      bytecount := 0
      paylen := 0
      result := if n = 2 then .success else .count }

/-! ### Encoding (spec/30_encoding.md) -/

/-- R76: the decoder selects the row iff `(w AND mask) = match` and the value checks pass, with the operands of R73–R75; no
two rows overlap; a word that selects no row is illegal; and a word of the CRC.TX or CRC.RX row is performed iff its N is at
most 256 and at most TXLEN or RXLEN, and raises ILLEGAL otherwise. -/
def Obligations.DecoderFollowsMaskAndMatch : Prop :=
  let rows : List (Word × Word) := [(0xFFFFFFFF, 0x01), (0xFFFF00FF, 0x02), (0xFE00FFFF, 0x03), (0xFE00FFFF, 0x04),
    (0xFFFFFFFF, 0x10), (0xFFFFFFFF, 0x11), (0xFFFFFFFF, 0x12), (0xFFFFFFFF, 0x18), (0xFFFFFFFF, 0x19),
    (0xFFFFFFFF, 0x1A), (0xFFFC00FF, 0x1C), (0xFFFFFFFF, 0x20), (0xFFFFFFFF, 0x21), (0xFFFFFFFF, 0x30),
    (0xFFFFFFFF, 0x31)]
  (∀ w : Word,
    (∀ p ∈ [((0x01 : Word), Instr.crcInit), (0x10, .encF32), (0x11, .encI32), (0x12, .encU32), (0x18, .decF32),
        (0x19, .decI32), (0x1A, .decU32), (0x20, .bldRd), (0x21, .bldWr), (0x30, .prsRd), (0x31, .prsWr)],
      w &&& 0xFFFFFFFF = p.1 ↔ decode w = .ok p.2) ∧
    (w &&& 0xFFFF00FF = 0x02 ↔ decode w = .ok (.crcByte (w.extractLsb' 8 8))) ∧
    ((w &&& 0xFE00FFFF = 0x03 ∧ (w.extractLsb' 16 9).toNat ≤ 256) ↔ decode w = .ok (.crcTx (w.extractLsb' 16 9))) ∧
    ((w &&& 0xFE00FFFF = 0x04 ∧ (w.extractLsb' 16 9).toNat ≤ 256) ↔ decode w = .ok (.crcRx (w.extractLsb' 16 9))) ∧
    ((w &&& 0xFFFC00FF = 0x1C ∧ w.extractLsb' 16 2 ≠ 3) ↔
      decode w = .ok (.decPay (w.extractLsb' 8 8) (w.extractLsb' 16 2))) ∧
    ((∀ r ∈ rows, w &&& r.1 ≠ r.2) → ∃ e, decode w = .error e)) ∧
  rows.Pairwise (fun p q => ∀ w : Word, ¬ (w &&& p.1 = p.2 ∧ w &&& q.1 = q.2)) ∧
  (∀ (s : State) (w : Word),
    (w &&& 0xFE00FFFF = 0x03 → issue w s =
      if (w.extractLsb' 16 9).toNat ≤ 256 ∧ (w.extractLsb' 16 9).toNat ≤ s.txlen.toNat
        then exec (.crcTx (w.extractLsb' 16 9)) s else .next { s with illegal := true }) ∧
    (w &&& 0xFE00FFFF = 0x04 → issue w s =
      if (w.extractLsb' 16 9).toNat ≤ 256 ∧ (w.extractLsb' 16 9).toNat ≤ s.rxlen.toNat
        then exec (.crcRx (w.extractLsb' 16 9)) s else .next { s with illegal := true }))

/-- Decode and encode agree: every well-formed command, with every operand, is read back from its word, and every word
that decodes is the word of the command it decodes to, which is well-formed. -/
def Obligations.DecodeAndEncodeAgree : Prop :=
  (∀ i : Instr, i.WellFormed → decode (encode i) = .ok i) ∧
  (∀ (w : Word) (i : Instr), decode w = .ok i → i.WellFormed ∧ encode i = w)

/-- Words of the spec's tables and examples decode to the commands they stand for (R76, R105–R108, R131). -/
def Obligations.SpecWordsDecodeAsWritten : Prop :=
  decode 0x00000001 = .ok .crcInit ∧ decode 0x00000102 = .ok (.crcByte 0x01) ∧
  decode 0x00060003 = .ok (.crcTx 6) ∧ decode 0x01000004 = .ok (.crcRx 256) ∧
  decode 0x00000012 = .ok .encU32 ∧ decode 0x00000019 = .ok .decI32 ∧
  decode 0x0001011C = .ok (.decPay 1 1) ∧ decode 0x0002001C = .ok (.decPay 0 2) ∧
  decode 0x00000021 = .ok .bldWr ∧ decode 0x00000031 = .ok .prsWr

/-- R77: an OP in no row, a 1 in a reserved bit, an N out of range and M = 3 raise ILLEGAL and change nothing else. -/
def Obligations.IllegalEncodingsOnlyRaiseIllegal : Prop :=
  ∀ (w : Word) (s : State),
    (w.extractLsb' 0 8 ∉ [(0x01 : Byte), 0x02, 0x03, 0x04, 0x10, 0x11, 0x12, 0x18, 0x19, 0x1A, 0x1C, 0x20, 0x21, 0x30,
        0x31] ∨
      (w.extractLsb' 0 8 ∈ [(0x01 : Byte), 0x10, 0x11, 0x12, 0x18, 0x19, 0x1A, 0x20, 0x21, 0x30, 0x31] ∧
        w.extractLsb' 8 24 ≠ 0) ∨
      (w.extractLsb' 0 8 = 0x02 ∧ w.extractLsb' 16 16 ≠ 0) ∨
      ((w.extractLsb' 0 8 = 0x03 ∨ w.extractLsb' 0 8 = 0x04) ∧
        (w.extractLsb' 8 8 ≠ 0 ∨ w.extractLsb' 25 7 ≠ 0 ∨ (w.extractLsb' 16 9).toNat > 256)) ∨
      (w.extractLsb' 0 8 = 0x03 ∧ (w.extractLsb' 16 9).toNat > s.txlen.toNat) ∨
      (w.extractLsb' 0 8 = 0x04 ∧ (w.extractLsb' 16 9).toNat > s.rxlen.toNat) ∨
      (w.extractLsb' 0 8 = 0x1C ∧ (w.extractLsb' 18 14 ≠ 0 ∨ w.extractLsb' 16 2 = 3))) →
    issue w s = .next { s with illegal := true }

/-! ### The register window (spec/20_memory.md, spec/10_state.md) -/

/-- The fields of the STATUS word, whose RESULT codes are those of the outcome table; its value after reset; a host write to
it is ignored (10_state.md section 4, 60_exceptions.md section 1). -/
def Obligations.StatusWordHoldsItsFields : Prop :=
  (∀ s : State,
    s.status.extractLsb' 0 4 = s.result.code ∧ s.status.getLsbD 4 = s.pv ∧ s.status.extractLsb' 5 3 = 0 ∧
    s.status.getLsbD 8 = s.illegal ∧ s.status.getLsbD 9 = s.buserr ∧ s.status.extractLsb' 10 22 = 0) ∧
  [ResultCode.success, .timeout, .short, .crc, .slave, .func, .addr, .count, .decode, .none].map ResultCode.code =
    [0x0, 0x1, 0x2, 0x3, 0x4, 0x5, 0x6, 0x7, 0x8, 0xF] ∧
  (∀ r : ResultCode, r.code ∉ [(0x9 : BitVec 4), 0xA, 0xB, 0xC, 0xD, 0xE]) ∧
  State.reset.status = 0x0000000F ∧
  (∀ (s : State) (w : Word) (rest : List Event), s.inReset = false →
    step { s with pending := writeEvent s.params 0x004 w :: rest } = .next { s with pending := rest })

/-- R51: every legal read returns the implemented bits of what its offset names, zero-extended, and changes nothing; every
legal write does what the rule says of its offset and nothing else. -/
def Obligations.LegalAccessesFollowTheWindow : Prop :=
  ∀ (s : State) (w : Word) (rest : List Event), s.inReset = false →
    (∀ p ∈ [(0x000, 0#32), (0x004, s.status), (0x008, s.crc.setWidth 32), (0x00C, s.slave.setWidth 32),
        (0x010, s.addr.setWidth 32), (0x014, s.count.setWidth 32), (0x018, s.value), (0x01C, s.regpair),
        (0x020, s.tag.code.setWidth 32), (0x024, s.txlen.setWidth 32), (0x028, s.rxlen.setWidth 32),
        (0x02C, s.bytecount.setWidth 32), (0x030, s.paylen.setWidth 32)],
      step { s with pending := readEvent s.params p.1 :: rest } =
        .next { s with pending := rest, reads := p.2 :: s.reads }) ∧
    (∀ i, i < 256 →
      step { s with pending := readEvent s.params (0x400 + 4 * i) :: rest } =
        .next { s with pending := rest, reads := (s.txAt i).setWidth 32 :: s.reads } ∧
      step { s with pending := readEvent s.params (0x800 + 4 * i) :: rest } =
        .next { s with pending := rest, reads := (s.rxAt i).setWidth 32 :: s.reads } ∧
      step { s with pending := writeEvent s.params (0x400 + 4 * i) w :: rest } = .next { s with pending := rest } ∧
      (∃ t, step { s with pending := writeEvent s.params (0x800 + 4 * i) w :: rest } = .next t ∧
        (∀ j, t.rxAt j = if j = i then w.setWidth 8 else s.rxAt j) ∧
        { t with rx := s.rx } = { s with pending := rest, pv := false })) ∧
    step { s with pending := writeEvent s.params 0x000 w :: rest } = issue w { s with pending := rest } ∧
    (∀ off ∈ [0x004, 0x020, 0x024, 0x02C, 0x030],
      step { s with pending := writeEvent s.params off w :: rest } = .next { s with pending := rest }) ∧
    step { s with pending := writeEvent s.params 0x008 w :: rest } =
      .next { s with pending := rest, crc := w.setWidth 16 } ∧
    step { s with pending := writeEvent s.params 0x00C w :: rest } =
      .next { s with pending := rest, slave := w.setWidth 8 } ∧
    step { s with pending := writeEvent s.params 0x010 w :: rest } =
      .next { s with pending := rest, addr := w.setWidth 16 } ∧
    step { s with pending := writeEvent s.params 0x014 w :: rest } =
      .next { s with pending := rest, count := w.setWidth 16 } ∧
    step { s with pending := writeEvent s.params 0x018 w :: rest } = .next { s with pending := rest, value := w } ∧
    step { s with pending := writeEvent s.params 0x01C w :: rest } = .next { s with pending := rest, regpair := w } ∧
    step { s with pending := writeEvent s.params 0x028 w :: rest } =
      .next { s with pending := rest, rxlen := BitVec.ofNat 9 (min w.toNat 256), pv := false }

/-- R31: RXLEN takes min(w, 256) of the word written; a later read returns that value; and with 0 both parsers give
TIMEOUT. -/
def Obligations.RxlenIsClampedToTheBuffer : Prop :=
  ∀ (s : State) (w : Word) (rest : List Event), s.inReset = false →
    ∃ t, step { s with pending := writeEvent s.params 0x028 w :: readEvent s.params 0x028 :: rest } = .next t ∧
      t.rxlen.toNat = min w.toNat 256 ∧ t.rxlen.toNat ≤ 256 ∧
      (∃ u, step t = .next u ∧ u.reads = BitVec.ofNat 32 (min w.toNat 256) :: s.reads) ∧
      (w = 0 → (∃ u, exec .prsRd t = .next u ∧ u.result = .timeout) ∧
        (∃ u, exec .prsWr t = .next u ∧ u.result = .timeout))

/-- R52: legal host reads change nothing but what the host has seen; two reads of one offset, with only reads between
them, return the same word; and a legal write changes at most the register or buffer entry that its offset names, and
nothing where that is read-only, but for a write to CMD, which issues a command, and writes to RXLEN and RXBUF, which also
clear PV. -/
def Obligations.ReadsHaveNoSideEffects : Prop :=
  let legal := fun off : Nat => off % 4 = 0 ∧ (off < 0x034 ∨ 0x400 ≤ off) ∧ off < 0xC00
  (∀ (s : State) (off : Nat) (between : List Nat), s.inReset = false → legal off → (∀ o ∈ between, legal o) →
    ∃ (v : Word) (vs : List Word), vs.length = between.length ∧
      Host.Core.run Sys2Proof.core (between.length + 2)
        { s with pending := (off :: between ++ [off]).map (readEvent s.params) } =
        .next { s with pending := [], reads := v :: (vs ++ v :: s.reads) }) ∧
  (∀ (s t : State) (off : Nat) (w : Word) (rest : List Event), s.inReset = false → legal off →
    step { s with pending := writeEvent s.params off w :: rest } = .next t →
    let s' := { s with pending := rest }
    if off = 0x000 then issue w s' = .next t
    else if off = 0x008 then t = { s' with crc := t.crc }
    else if off = 0x00C then t = { s' with slave := t.slave }
    else if off = 0x010 then t = { s' with addr := t.addr }
    else if off = 0x014 then t = { s' with count := t.count }
    else if off = 0x018 then t = { s' with value := t.value }
    else if off = 0x01C then t = { s' with regpair := t.regpair }
    else if off = 0x028 then t = { s' with rxlen := t.rxlen, pv := false }
    else if 0x800 ≤ off then
      t = { s' with rx := t.rx, pv := false } ∧ ∀ j, j ≠ (off - 0x800) / 4 → t.rxAt j = s.rxAt j
    else t = s')

/-- R53: an access that is not 32 bits wide, not at a multiple of 4, or at a reserved offset sets BUSERR and changes
nothing else; a read of it returns 0. No other access sets BUSERR. -/
def Obligations.IllegalAccessOnlyRaisesBuserr : Prop :=
  ∀ (s : State) (off bits : Nat) (rest : List Event), s.inReset = false → off < 4096 →
    let bad : Prop := bits ≠ 32 ∨ off % 4 ≠ 0 ∨ (0x034 ≤ off ∧ off ≤ 0x3FC) ∨ (0xC00 ≤ off ∧ off ≤ 0xFFC)
    let event := fun k : AccessKind => Event.access { addr := s.params.blockBase + off, bits := bits, kind := k }
    (bad →
      step { s with pending := event .read :: rest } =
        .next { s with pending := rest, buserr := true, reads := 0 :: s.reads } ∧
      (∀ w, step { s with pending := event (.write w) :: rest } = .next { s with pending := rest, buserr := true })) ∧
    (¬ bad → ∀ (k : AccessKind) (t : State), step { s with pending := event k :: rest } = .next t →
      t.buserr = s.buserr)

/-- R244: a host write to RXLEN or to an RXBUF entry clears PV, and a DEC.PAY after it gives DECODE and changes nothing
else. -/
def Obligations.LoadingAResponseEndsThePayload : Prop :=
  ∀ (s t : State) (off : Nat) (w : Word) (rest : List Event), s.inReset = false →
    (off = 0x028 ∨ (0x800 ≤ off ∧ off < 0xC00 ∧ off % 4 = 0)) →
    step { s with pending := writeEvent s.params off w :: rest } = .next t →
    t.pv = false ∧ ∀ (k : Byte) (m : BitVec 2), m ≠ 3 → exec (.decPay k m) t = .next { t with result := .decode }

/-- The pseudo-instruction loadrx (30_encoding.md section 6): it presents the bytes in RXBUF and their number in RXLEN,
clears PV, and leaves the rest of the block alone, the rest of RXBUF included. -/
def Obligations.LoadrxPresentsTheResponse : Prop :=
  ∀ (s : State) (bytes : List Byte), s.inReset = false → bytes.length ≤ 256 →
    ∃ t, Host.Core.run Sys2Proof.core (bytes.length + 1) (s.withProgram (loadrx bytes)) = .next t ∧
      (∀ (i : Nat) (h : i < bytes.length), t.rxAt i = bytes[i]) ∧
      (∀ i, bytes.length ≤ i → t.rxAt i = s.rxAt i) ∧
      t.rxlen.toNat = bytes.length ∧
      { t with rx := s.rx, rxlen := s.rxlen } = { s with pv := false, pending := [] }

/-! ### Frames and faults, over all commands and all steps -/

/-- What each command writes (the table of 10_state.md section 3), by command. -/
def Obligations.CommandsWriteOnlyTheirState : Prop :=
  ∀ s t : State,
    (exec .crcInit s = .next t → { t with crc := s.crc } = s) ∧
    (∀ b, exec (.crcByte b) s = .next t → { t with crc := s.crc } = s) ∧
    (∀ n, exec (.crcTx n) s = .next t → { t with crc := s.crc } = s ∨ t = { s with illegal := true }) ∧
    (∀ n, exec (.crcRx n) s = .next t → { t with crc := s.crc } = s ∨ t = { s with illegal := true }) ∧
    (∀ i, (i = .encF32 ∨ i = .encI32 ∨ i = .encU32) → exec i s = .next t →
      { t with regpair := s.regpair, tag := s.tag } = s) ∧
    (∀ i, (i = .decF32 ∨ i = .decI32 ∨ i = .decU32) → exec i s = .next t →
      { t with value := s.value, tag := s.tag } = s) ∧
    (∀ k m, exec (.decPay k m) s = .next t →
      t = { s with illegal := true } ∨ { t with result := s.result } = s ∨
      (t.result = .success ∧ { t with result := s.result, value := s.value, regpair := s.regpair, tag := s.tag } = s)) ∧
    (exec .bldRd s = .next t →
      { t with tx := s.tx, txlen := s.txlen, crc := s.crc } = s ∧ ∀ i, 8 ≤ i → t.txAt i = s.txAt i) ∧
    (exec .bldWr s = .next t →
      { t with tx := s.tx, txlen := s.txlen, crc := s.crc } = s ∧ ∀ i, 13 ≤ i → t.txAt i = s.txAt i) ∧
    (∀ i, (i = .prsRd ∨ i = .prsWr) → exec i s = .next t →
      { t with result := s.result, pv := s.pv, bytecount := s.bytecount, paylen := s.paylen } = s)

/-- R25: only PRS.RD, PRS.WR and DEC.PAY write RESULT, and each of them, unless it raises ILLEGAL, leaves one of the
outcome codes and not NONE. -/
def Obligations.ResultIsWrittenByValidationOnly : Prop :=
  ∀ (i : Instr) (s t : State), exec i s = .next t →
    ((i = .prsRd ∨ i = .prsWr ∨ ∃ k m, i = .decPay k m) → t = { s with illegal := true } ∨ t.result ≠ .none) ∧
    (¬ (i = .prsRd ∨ i = .prsWr ∨ ∃ k m, i = .decPay k m) → t.result = s.result)

/-- Every command, of every form, answers a next state; no command writes SLAVE, ADDR, COUNT, RXLEN, RXBUF or BUSERR, or
anything outside the block; a command that raises ILLEGAL changes nothing else (10_state.md section 3,
60_exceptions.md section 2). -/
def Obligations.CommandsCompleteAndKeepHostState : Prop :=
  ∀ (i : Instr) (s : State), ∃ t, exec i s = .next t ∧
    t.slave = s.slave ∧ t.addr = s.addr ∧ t.count = s.count ∧ t.rxlen = s.rxlen ∧ t.rx = s.rx ∧
    t.buserr = s.buserr ∧ State.sameOutside s t ∧
    (t.illegal ≠ s.illegal → t = { s with illegal := true })

/-- Precise and sticky faults (60_exceptions.md section 2, 70_reset_and_hazards.md section 1). A command word is performed
whole, raising no fault, or not at all; a faulting host access or command leaves the state before it with one sticky bit
added, so that no event raises both faults; a fault that is set stays set until an asserted reset is released. That a flag
survives the assertion of reset and is cleared at its release, and that a low level after a low level is no release, is
the model's choice (notes/assumptions/6.md). -/
def Obligations.FaultsArePreciseAndSticky : Prop :=
  (∀ (w : Word) (s : State), issue w s = .next { s with illegal := true } ∨
    ∃ i t, decode w = .ok i ∧ issue w s = .next t ∧ exec i s = .next t ∧ t.illegal = s.illegal ∧
      t.buserr = s.buserr) ∧
  ∀ s t : State, step s = .next t →
    (s.illegal = false → t.illegal = true → t = { s with pending := s.pending.tail, illegal := true }) ∧
    (s.buserr = false → t.buserr = true →
      t = { s with pending := s.pending.tail, buserr := true } ∨
      t = { s with pending := s.pending.tail, buserr := true, reads := 0 :: s.reads }) ∧
    (s.illegal = true → t.illegal = true ∨ (s.inReset = true ∧ s.pending.head? = some (.resetLine false))) ∧
    (s.buserr = true → t.buserr = true ∨ (s.inReset = true ∧ s.pending.head? = some (.resetLine false)))

/-- A step always answers a next state: the machine never stops. It takes the next event from the list and keeps the
parameters (20_memory.md section 6, 60_exceptions.md sections 1 and 2; the list of events is the model's form,
notes/assumptions/1.md, and an empty list idles, notes/assumptions/2.md). -/
def Obligations.EveryStepAnswersNext : Prop :=
  ∀ s : State, ∃ t, step s = .next t ∧ t.pending = s.pending.tail ∧ t.params = s.params ∧
    (∃ ws, t.reads = ws ++ s.reads ∧ ws.length ≤ 1)

/-- When the next event writes to CMD a word that decodes to a well-formed command, the step is exec of that command on
the state with the event taken; when the word does not decode, it raises ILLEGAL. The same for the state that
withFetchWord makes. -/
def Obligations.StepRunsTheDecodedCommand : Prop :=
  ∀ (s : State) (rest : List Event) (w : Word), s.inReset = false →
    (∀ i, decode w = .ok i → i.WellFormed →
      step { s with pending := writeEvent s.params 0x000 w :: rest } = exec i { s with pending := rest } ∧
      step (s.withFetchWord 32 w.toNat) = exec i s) ∧
    (∀ e, decode w = .error e →
      step { s with pending := writeEvent s.params 0x000 w :: rest } =
        .next { s with pending := rest, illegal := true })

/-! ### Reset and the buffers (spec/70_reset_and_hazards.md, spec/10_state.md) -/

/-- R36: every register at its value of the reset table, and no byte of the buffers defined: each reads as its draw. -/
def Obligations.ResetHoldsTheResetTable : Prop :=
  State.reset.crc = 0xFFFF ∧ State.reset.slave = 0 ∧ State.reset.addr = 0 ∧ State.reset.count = 2 ∧
  State.reset.value = 0 ∧ State.reset.regpair = 0 ∧ State.reset.tag = .f32 ∧ State.reset.txlen = 0 ∧
  State.reset.rxlen = 0 ∧ State.reset.bytecount = 0 ∧ State.reset.paylen = 0 ∧ State.reset.result = .none ∧
  State.reset.pv = false ∧ State.reset.illegal = false ∧ State.reset.buserr = false ∧
  (∀ i, State.reset.txAt i = Config.bufferDraw .tx State.reset.drawEpoch i ∧
    State.reset.rxAt i = Config.bufferDraw .rx State.reset.drawEpoch i)

/-- The reset input (70_reset_and_hazards.md section 1): while it is asserted no access has any effect on the block; when
it is released the block is at its reset values, its buffers at new draws, and what is outside it as it was. That an
access offered meanwhile is dropped, and that the values appear at the release, is the model's choice
(notes/assumptions/6.md). -/
def Obligations.ReleaseOfResetRestoresTheTable : Prop :=
  ∀ (s : State) (rest : List Event),
    step { s with pending := .resetLine true :: rest } = .next { s with pending := rest, inReset := true } ∧
    (s.inReset = true → ∀ a, step { s with pending := .access a :: rest } = .next { s with pending := rest }) ∧
    (s.inReset = true → ∃ t, step { s with pending := .resetLine false :: rest } = .next t ∧
      t.inReset = false ∧ t.crc = 0xFFFF ∧ t.slave = 0 ∧ t.addr = 0 ∧ t.count = 2 ∧ t.value = 0 ∧ t.regpair = 0 ∧
      t.tag = .f32 ∧ t.txlen = 0 ∧ t.rxlen = 0 ∧ t.bytecount = 0 ∧ t.paylen = 0 ∧ t.status = 0x0000000F ∧
      (∀ i, t.txAt i = Config.bufferDraw .tx (s.drawEpoch + 1) i ∧
        t.rxAt i = Config.bufferDraw .rx (s.drawEpoch + 1) i) ∧
      t.pending = rest ∧ t.reads = s.reads ∧ t.params = s.params)

/-- R241: a byte keeps its drawn value until it is written: across any step that is no release of reset, an entry of
either buffer that is still unwritten after the step reads the same, and as the draw. -/
def Obligations.UnwrittenBytesKeepTheirDraw : Prop :=
  ∀ (s t : State) (i : Nat), step s = .next t → t.drawEpoch = s.drawEpoch →
    (t.tx.byte? i = none → t.txAt i = s.txAt i ∧ t.txAt i = Config.bufferDraw .tx s.drawEpoch i) ∧
    (t.rx.byte? i = none → t.rxAt i = s.rxAt i ∧ t.rxAt i = Config.bufferDraw .rx s.drawEpoch i)

/-- Who writes the buffers (10_state.md section 6): a step changes an entry of RXBUF only by a host write to that entry,
and an entry of TXBUF, or TXLEN, only by a write to CMD of the words of BLD.RD and BLD.WR; or a reset is released. -/
def Obligations.OnlyBuildersWriteTxAndOnlyTheHostWritesRx : Prop :=
  ∀ (s t : State) (i : Nat), i < 256 → step s = .next t → t.drawEpoch = s.drawEpoch →
    (t.rxAt i ≠ s.rxAt i →
      ∃ w, s.pending.head? = some (writeEvent s.params (0x800 + 4 * i) w) ∧ t.rxAt i = w.setWidth 8) ∧
    (t.txAt i ≠ s.txAt i ∨ t.txlen ≠ s.txlen →
      s.pending.head? = some (writeEvent s.params 0x000 0x00000020) ∨
      s.pending.head? = some (writeEvent s.params 0x000 0x00000021))

/-- The invariant holds after reset. -/
def Obligations.ResetMeetsTheBlockInvariant : Prop := State.reset.Inv

/-- Every step keeps the invariant of the block: canonical buffers and lengths within them; the request in TXBUF, once
built, carries its function code and its own CRC; while PV is set, RXBUF holds a read response that ends in its own CRC,
BYTECOUNT and PAYLEN describe its payload, and RESULT is SUCCESS or DECODE. -/
def Obligations.StepKeepsTheBlockInvariant : Prop :=
  ∀ s t : State, s.Inv → step s = .next t → t.Inv
end

