-- ==== Sys2Proof/Laws/State.lean ====
section
/-! SUPPORT. One lemma per field per update of State (Machine/Ops.lean), each true by rfl, so that no later proof unfolds
a record update, and what each update leaves of the buffers as they read. -/

namespace Sys2Proof.Machine

/-! ### setCrc -/

@[simp] theorem State.setCrc_crc (v : Half) (s : State) : (s.setCrc v).crc = v := rfl
@[simp] theorem State.setCrc_slave (v : Half) (s : State) : (s.setCrc v).slave = s.slave := rfl
@[simp] theorem State.setCrc_addr (v : Half) (s : State) : (s.setCrc v).addr = s.addr := rfl
@[simp] theorem State.setCrc_count (v : Half) (s : State) : (s.setCrc v).count = s.count := rfl
@[simp] theorem State.setCrc_value (v : Half) (s : State) : (s.setCrc v).value = s.value := rfl
@[simp] theorem State.setCrc_regpair (v : Half) (s : State) : (s.setCrc v).regpair = s.regpair := rfl
@[simp] theorem State.setCrc_tag (v : Half) (s : State) : (s.setCrc v).tag = s.tag := rfl
@[simp] theorem State.setCrc_txlen (v : Half) (s : State) : (s.setCrc v).txlen = s.txlen := rfl
@[simp] theorem State.setCrc_rxlen (v : Half) (s : State) : (s.setCrc v).rxlen = s.rxlen := rfl
@[simp] theorem State.setCrc_bytecount (v : Half) (s : State) : (s.setCrc v).bytecount = s.bytecount := rfl
@[simp] theorem State.setCrc_paylen (v : Half) (s : State) : (s.setCrc v).paylen = s.paylen := rfl
@[simp] theorem State.setCrc_result (v : Half) (s : State) : (s.setCrc v).result = s.result := rfl
@[simp] theorem State.setCrc_pv (v : Half) (s : State) : (s.setCrc v).pv = s.pv := rfl
@[simp] theorem State.setCrc_illegal (v : Half) (s : State) : (s.setCrc v).illegal = s.illegal := rfl
@[simp] theorem State.setCrc_buserr (v : Half) (s : State) : (s.setCrc v).buserr = s.buserr := rfl
@[simp] theorem State.setCrc_tx (v : Half) (s : State) : (s.setCrc v).tx = s.tx := rfl
@[simp] theorem State.setCrc_rx (v : Half) (s : State) : (s.setCrc v).rx = s.rx := rfl
@[simp] theorem State.setCrc_drawEpoch (v : Half) (s : State) : (s.setCrc v).drawEpoch = s.drawEpoch := rfl
@[simp] theorem State.setCrc_inReset (v : Half) (s : State) : (s.setCrc v).inReset = s.inReset := rfl
@[simp] theorem State.setCrc_pending (v : Half) (s : State) : (s.setCrc v).pending = s.pending := rfl
@[simp] theorem State.setCrc_reads (v : Half) (s : State) : (s.setCrc v).reads = s.reads := rfl
@[simp] theorem State.setCrc_params (v : Half) (s : State) : (s.setCrc v).params = s.params := rfl
@[simp] theorem State.setCrc_txAt (v : Half) (s : State) (i : Nat) : (s.setCrc v).txAt i = s.txAt i := rfl
@[simp] theorem State.setCrc_rxAt (v : Half) (s : State) (i : Nat) : (s.setCrc v).rxAt i = s.rxAt i := rfl

/-! ### setSlave -/

@[simp] theorem State.setSlave_crc (v : Byte) (s : State) : (s.setSlave v).crc = s.crc := rfl
@[simp] theorem State.setSlave_slave (v : Byte) (s : State) : (s.setSlave v).slave = v := rfl
@[simp] theorem State.setSlave_addr (v : Byte) (s : State) : (s.setSlave v).addr = s.addr := rfl
@[simp] theorem State.setSlave_count (v : Byte) (s : State) : (s.setSlave v).count = s.count := rfl
@[simp] theorem State.setSlave_value (v : Byte) (s : State) : (s.setSlave v).value = s.value := rfl
@[simp] theorem State.setSlave_regpair (v : Byte) (s : State) : (s.setSlave v).regpair = s.regpair := rfl
@[simp] theorem State.setSlave_tag (v : Byte) (s : State) : (s.setSlave v).tag = s.tag := rfl
@[simp] theorem State.setSlave_txlen (v : Byte) (s : State) : (s.setSlave v).txlen = s.txlen := rfl
@[simp] theorem State.setSlave_rxlen (v : Byte) (s : State) : (s.setSlave v).rxlen = s.rxlen := rfl
@[simp] theorem State.setSlave_bytecount (v : Byte) (s : State) : (s.setSlave v).bytecount = s.bytecount := rfl
@[simp] theorem State.setSlave_paylen (v : Byte) (s : State) : (s.setSlave v).paylen = s.paylen := rfl
@[simp] theorem State.setSlave_result (v : Byte) (s : State) : (s.setSlave v).result = s.result := rfl
@[simp] theorem State.setSlave_pv (v : Byte) (s : State) : (s.setSlave v).pv = s.pv := rfl
@[simp] theorem State.setSlave_illegal (v : Byte) (s : State) : (s.setSlave v).illegal = s.illegal := rfl
@[simp] theorem State.setSlave_buserr (v : Byte) (s : State) : (s.setSlave v).buserr = s.buserr := rfl
@[simp] theorem State.setSlave_tx (v : Byte) (s : State) : (s.setSlave v).tx = s.tx := rfl
@[simp] theorem State.setSlave_rx (v : Byte) (s : State) : (s.setSlave v).rx = s.rx := rfl
@[simp] theorem State.setSlave_drawEpoch (v : Byte) (s : State) : (s.setSlave v).drawEpoch = s.drawEpoch := rfl
@[simp] theorem State.setSlave_inReset (v : Byte) (s : State) : (s.setSlave v).inReset = s.inReset := rfl
@[simp] theorem State.setSlave_pending (v : Byte) (s : State) : (s.setSlave v).pending = s.pending := rfl
@[simp] theorem State.setSlave_reads (v : Byte) (s : State) : (s.setSlave v).reads = s.reads := rfl
@[simp] theorem State.setSlave_params (v : Byte) (s : State) : (s.setSlave v).params = s.params := rfl
@[simp] theorem State.setSlave_txAt (v : Byte) (s : State) (i : Nat) : (s.setSlave v).txAt i = s.txAt i := rfl
@[simp] theorem State.setSlave_rxAt (v : Byte) (s : State) (i : Nat) : (s.setSlave v).rxAt i = s.rxAt i := rfl

/-! ### setAddr -/

@[simp] theorem State.setAddr_crc (v : Half) (s : State) : (s.setAddr v).crc = s.crc := rfl
@[simp] theorem State.setAddr_slave (v : Half) (s : State) : (s.setAddr v).slave = s.slave := rfl
@[simp] theorem State.setAddr_addr (v : Half) (s : State) : (s.setAddr v).addr = v := rfl
@[simp] theorem State.setAddr_count (v : Half) (s : State) : (s.setAddr v).count = s.count := rfl
@[simp] theorem State.setAddr_value (v : Half) (s : State) : (s.setAddr v).value = s.value := rfl
@[simp] theorem State.setAddr_regpair (v : Half) (s : State) : (s.setAddr v).regpair = s.regpair := rfl
@[simp] theorem State.setAddr_tag (v : Half) (s : State) : (s.setAddr v).tag = s.tag := rfl
@[simp] theorem State.setAddr_txlen (v : Half) (s : State) : (s.setAddr v).txlen = s.txlen := rfl
@[simp] theorem State.setAddr_rxlen (v : Half) (s : State) : (s.setAddr v).rxlen = s.rxlen := rfl
@[simp] theorem State.setAddr_bytecount (v : Half) (s : State) : (s.setAddr v).bytecount = s.bytecount := rfl
@[simp] theorem State.setAddr_paylen (v : Half) (s : State) : (s.setAddr v).paylen = s.paylen := rfl
@[simp] theorem State.setAddr_result (v : Half) (s : State) : (s.setAddr v).result = s.result := rfl
@[simp] theorem State.setAddr_pv (v : Half) (s : State) : (s.setAddr v).pv = s.pv := rfl
@[simp] theorem State.setAddr_illegal (v : Half) (s : State) : (s.setAddr v).illegal = s.illegal := rfl
@[simp] theorem State.setAddr_buserr (v : Half) (s : State) : (s.setAddr v).buserr = s.buserr := rfl
@[simp] theorem State.setAddr_tx (v : Half) (s : State) : (s.setAddr v).tx = s.tx := rfl
@[simp] theorem State.setAddr_rx (v : Half) (s : State) : (s.setAddr v).rx = s.rx := rfl
@[simp] theorem State.setAddr_drawEpoch (v : Half) (s : State) : (s.setAddr v).drawEpoch = s.drawEpoch := rfl
@[simp] theorem State.setAddr_inReset (v : Half) (s : State) : (s.setAddr v).inReset = s.inReset := rfl
@[simp] theorem State.setAddr_pending (v : Half) (s : State) : (s.setAddr v).pending = s.pending := rfl
@[simp] theorem State.setAddr_reads (v : Half) (s : State) : (s.setAddr v).reads = s.reads := rfl
@[simp] theorem State.setAddr_params (v : Half) (s : State) : (s.setAddr v).params = s.params := rfl
@[simp] theorem State.setAddr_txAt (v : Half) (s : State) (i : Nat) : (s.setAddr v).txAt i = s.txAt i := rfl
@[simp] theorem State.setAddr_rxAt (v : Half) (s : State) (i : Nat) : (s.setAddr v).rxAt i = s.rxAt i := rfl

/-! ### setCount -/

@[simp] theorem State.setCount_crc (v : Half) (s : State) : (s.setCount v).crc = s.crc := rfl
@[simp] theorem State.setCount_slave (v : Half) (s : State) : (s.setCount v).slave = s.slave := rfl
@[simp] theorem State.setCount_addr (v : Half) (s : State) : (s.setCount v).addr = s.addr := rfl
@[simp] theorem State.setCount_count (v : Half) (s : State) : (s.setCount v).count = v := rfl
@[simp] theorem State.setCount_value (v : Half) (s : State) : (s.setCount v).value = s.value := rfl
@[simp] theorem State.setCount_regpair (v : Half) (s : State) : (s.setCount v).regpair = s.regpair := rfl
@[simp] theorem State.setCount_tag (v : Half) (s : State) : (s.setCount v).tag = s.tag := rfl
@[simp] theorem State.setCount_txlen (v : Half) (s : State) : (s.setCount v).txlen = s.txlen := rfl
@[simp] theorem State.setCount_rxlen (v : Half) (s : State) : (s.setCount v).rxlen = s.rxlen := rfl
@[simp] theorem State.setCount_bytecount (v : Half) (s : State) : (s.setCount v).bytecount = s.bytecount := rfl
@[simp] theorem State.setCount_paylen (v : Half) (s : State) : (s.setCount v).paylen = s.paylen := rfl
@[simp] theorem State.setCount_result (v : Half) (s : State) : (s.setCount v).result = s.result := rfl
@[simp] theorem State.setCount_pv (v : Half) (s : State) : (s.setCount v).pv = s.pv := rfl
@[simp] theorem State.setCount_illegal (v : Half) (s : State) : (s.setCount v).illegal = s.illegal := rfl
@[simp] theorem State.setCount_buserr (v : Half) (s : State) : (s.setCount v).buserr = s.buserr := rfl
@[simp] theorem State.setCount_tx (v : Half) (s : State) : (s.setCount v).tx = s.tx := rfl
@[simp] theorem State.setCount_rx (v : Half) (s : State) : (s.setCount v).rx = s.rx := rfl
@[simp] theorem State.setCount_drawEpoch (v : Half) (s : State) : (s.setCount v).drawEpoch = s.drawEpoch := rfl
@[simp] theorem State.setCount_inReset (v : Half) (s : State) : (s.setCount v).inReset = s.inReset := rfl
@[simp] theorem State.setCount_pending (v : Half) (s : State) : (s.setCount v).pending = s.pending := rfl
@[simp] theorem State.setCount_reads (v : Half) (s : State) : (s.setCount v).reads = s.reads := rfl
@[simp] theorem State.setCount_params (v : Half) (s : State) : (s.setCount v).params = s.params := rfl
@[simp] theorem State.setCount_txAt (v : Half) (s : State) (i : Nat) : (s.setCount v).txAt i = s.txAt i := rfl
@[simp] theorem State.setCount_rxAt (v : Half) (s : State) (i : Nat) : (s.setCount v).rxAt i = s.rxAt i := rfl

/-! ### setValue -/

@[simp] theorem State.setValue_crc (v : Word) (s : State) : (s.setValue v).crc = s.crc := rfl
@[simp] theorem State.setValue_slave (v : Word) (s : State) : (s.setValue v).slave = s.slave := rfl
@[simp] theorem State.setValue_addr (v : Word) (s : State) : (s.setValue v).addr = s.addr := rfl
@[simp] theorem State.setValue_count (v : Word) (s : State) : (s.setValue v).count = s.count := rfl
@[simp] theorem State.setValue_value (v : Word) (s : State) : (s.setValue v).value = v := rfl
@[simp] theorem State.setValue_regpair (v : Word) (s : State) : (s.setValue v).regpair = s.regpair := rfl
@[simp] theorem State.setValue_tag (v : Word) (s : State) : (s.setValue v).tag = s.tag := rfl
@[simp] theorem State.setValue_txlen (v : Word) (s : State) : (s.setValue v).txlen = s.txlen := rfl
@[simp] theorem State.setValue_rxlen (v : Word) (s : State) : (s.setValue v).rxlen = s.rxlen := rfl
@[simp] theorem State.setValue_bytecount (v : Word) (s : State) : (s.setValue v).bytecount = s.bytecount := rfl
@[simp] theorem State.setValue_paylen (v : Word) (s : State) : (s.setValue v).paylen = s.paylen := rfl
@[simp] theorem State.setValue_result (v : Word) (s : State) : (s.setValue v).result = s.result := rfl
@[simp] theorem State.setValue_pv (v : Word) (s : State) : (s.setValue v).pv = s.pv := rfl
@[simp] theorem State.setValue_illegal (v : Word) (s : State) : (s.setValue v).illegal = s.illegal := rfl
@[simp] theorem State.setValue_buserr (v : Word) (s : State) : (s.setValue v).buserr = s.buserr := rfl
@[simp] theorem State.setValue_tx (v : Word) (s : State) : (s.setValue v).tx = s.tx := rfl
@[simp] theorem State.setValue_rx (v : Word) (s : State) : (s.setValue v).rx = s.rx := rfl
@[simp] theorem State.setValue_drawEpoch (v : Word) (s : State) : (s.setValue v).drawEpoch = s.drawEpoch := rfl
@[simp] theorem State.setValue_inReset (v : Word) (s : State) : (s.setValue v).inReset = s.inReset := rfl
@[simp] theorem State.setValue_pending (v : Word) (s : State) : (s.setValue v).pending = s.pending := rfl
@[simp] theorem State.setValue_reads (v : Word) (s : State) : (s.setValue v).reads = s.reads := rfl
@[simp] theorem State.setValue_params (v : Word) (s : State) : (s.setValue v).params = s.params := rfl
@[simp] theorem State.setValue_txAt (v : Word) (s : State) (i : Nat) : (s.setValue v).txAt i = s.txAt i := rfl
@[simp] theorem State.setValue_rxAt (v : Word) (s : State) (i : Nat) : (s.setValue v).rxAt i = s.rxAt i := rfl

/-! ### setRegpair -/

@[simp] theorem State.setRegpair_crc (v : Word) (s : State) : (s.setRegpair v).crc = s.crc := rfl
@[simp] theorem State.setRegpair_slave (v : Word) (s : State) : (s.setRegpair v).slave = s.slave := rfl
@[simp] theorem State.setRegpair_addr (v : Word) (s : State) : (s.setRegpair v).addr = s.addr := rfl
@[simp] theorem State.setRegpair_count (v : Word) (s : State) : (s.setRegpair v).count = s.count := rfl
@[simp] theorem State.setRegpair_value (v : Word) (s : State) : (s.setRegpair v).value = s.value := rfl
@[simp] theorem State.setRegpair_regpair (v : Word) (s : State) : (s.setRegpair v).regpair = v := rfl
@[simp] theorem State.setRegpair_tag (v : Word) (s : State) : (s.setRegpair v).tag = s.tag := rfl
@[simp] theorem State.setRegpair_txlen (v : Word) (s : State) : (s.setRegpair v).txlen = s.txlen := rfl
@[simp] theorem State.setRegpair_rxlen (v : Word) (s : State) : (s.setRegpair v).rxlen = s.rxlen := rfl
@[simp] theorem State.setRegpair_bytecount (v : Word) (s : State) : (s.setRegpair v).bytecount = s.bytecount := rfl
@[simp] theorem State.setRegpair_paylen (v : Word) (s : State) : (s.setRegpair v).paylen = s.paylen := rfl
@[simp] theorem State.setRegpair_result (v : Word) (s : State) : (s.setRegpair v).result = s.result := rfl
@[simp] theorem State.setRegpair_pv (v : Word) (s : State) : (s.setRegpair v).pv = s.pv := rfl
@[simp] theorem State.setRegpair_illegal (v : Word) (s : State) : (s.setRegpair v).illegal = s.illegal := rfl
@[simp] theorem State.setRegpair_buserr (v : Word) (s : State) : (s.setRegpair v).buserr = s.buserr := rfl
@[simp] theorem State.setRegpair_tx (v : Word) (s : State) : (s.setRegpair v).tx = s.tx := rfl
@[simp] theorem State.setRegpair_rx (v : Word) (s : State) : (s.setRegpair v).rx = s.rx := rfl
@[simp] theorem State.setRegpair_drawEpoch (v : Word) (s : State) : (s.setRegpair v).drawEpoch = s.drawEpoch := rfl
@[simp] theorem State.setRegpair_inReset (v : Word) (s : State) : (s.setRegpair v).inReset = s.inReset := rfl
@[simp] theorem State.setRegpair_pending (v : Word) (s : State) : (s.setRegpair v).pending = s.pending := rfl
@[simp] theorem State.setRegpair_reads (v : Word) (s : State) : (s.setRegpair v).reads = s.reads := rfl
@[simp] theorem State.setRegpair_params (v : Word) (s : State) : (s.setRegpair v).params = s.params := rfl
@[simp] theorem State.setRegpair_txAt (v : Word) (s : State) (i : Nat) : (s.setRegpair v).txAt i = s.txAt i := rfl
@[simp] theorem State.setRegpair_rxAt (v : Word) (s : State) (i : Nat) : (s.setRegpair v).rxAt i = s.rxAt i := rfl

/-! ### setTag -/

@[simp] theorem State.setTag_crc (v : Tag) (s : State) : (s.setTag v).crc = s.crc := rfl
@[simp] theorem State.setTag_slave (v : Tag) (s : State) : (s.setTag v).slave = s.slave := rfl
@[simp] theorem State.setTag_addr (v : Tag) (s : State) : (s.setTag v).addr = s.addr := rfl
@[simp] theorem State.setTag_count (v : Tag) (s : State) : (s.setTag v).count = s.count := rfl
@[simp] theorem State.setTag_value (v : Tag) (s : State) : (s.setTag v).value = s.value := rfl
@[simp] theorem State.setTag_regpair (v : Tag) (s : State) : (s.setTag v).regpair = s.regpair := rfl
@[simp] theorem State.setTag_tag (v : Tag) (s : State) : (s.setTag v).tag = v := rfl
@[simp] theorem State.setTag_txlen (v : Tag) (s : State) : (s.setTag v).txlen = s.txlen := rfl
@[simp] theorem State.setTag_rxlen (v : Tag) (s : State) : (s.setTag v).rxlen = s.rxlen := rfl
@[simp] theorem State.setTag_bytecount (v : Tag) (s : State) : (s.setTag v).bytecount = s.bytecount := rfl
@[simp] theorem State.setTag_paylen (v : Tag) (s : State) : (s.setTag v).paylen = s.paylen := rfl
@[simp] theorem State.setTag_result (v : Tag) (s : State) : (s.setTag v).result = s.result := rfl
@[simp] theorem State.setTag_pv (v : Tag) (s : State) : (s.setTag v).pv = s.pv := rfl
@[simp] theorem State.setTag_illegal (v : Tag) (s : State) : (s.setTag v).illegal = s.illegal := rfl
@[simp] theorem State.setTag_buserr (v : Tag) (s : State) : (s.setTag v).buserr = s.buserr := rfl
@[simp] theorem State.setTag_tx (v : Tag) (s : State) : (s.setTag v).tx = s.tx := rfl
@[simp] theorem State.setTag_rx (v : Tag) (s : State) : (s.setTag v).rx = s.rx := rfl
@[simp] theorem State.setTag_drawEpoch (v : Tag) (s : State) : (s.setTag v).drawEpoch = s.drawEpoch := rfl
@[simp] theorem State.setTag_inReset (v : Tag) (s : State) : (s.setTag v).inReset = s.inReset := rfl
@[simp] theorem State.setTag_pending (v : Tag) (s : State) : (s.setTag v).pending = s.pending := rfl
@[simp] theorem State.setTag_reads (v : Tag) (s : State) : (s.setTag v).reads = s.reads := rfl
@[simp] theorem State.setTag_params (v : Tag) (s : State) : (s.setTag v).params = s.params := rfl
@[simp] theorem State.setTag_txAt (v : Tag) (s : State) (i : Nat) : (s.setTag v).txAt i = s.txAt i := rfl
@[simp] theorem State.setTag_rxAt (v : Tag) (s : State) (i : Nat) : (s.setTag v).rxAt i = s.rxAt i := rfl

/-! ### setTxlen -/

@[simp] theorem State.setTxlen_crc (v : Len) (s : State) : (s.setTxlen v).crc = s.crc := rfl
@[simp] theorem State.setTxlen_slave (v : Len) (s : State) : (s.setTxlen v).slave = s.slave := rfl
@[simp] theorem State.setTxlen_addr (v : Len) (s : State) : (s.setTxlen v).addr = s.addr := rfl
@[simp] theorem State.setTxlen_count (v : Len) (s : State) : (s.setTxlen v).count = s.count := rfl
@[simp] theorem State.setTxlen_value (v : Len) (s : State) : (s.setTxlen v).value = s.value := rfl
@[simp] theorem State.setTxlen_regpair (v : Len) (s : State) : (s.setTxlen v).regpair = s.regpair := rfl
@[simp] theorem State.setTxlen_tag (v : Len) (s : State) : (s.setTxlen v).tag = s.tag := rfl
@[simp] theorem State.setTxlen_txlen (v : Len) (s : State) : (s.setTxlen v).txlen = v := rfl
@[simp] theorem State.setTxlen_rxlen (v : Len) (s : State) : (s.setTxlen v).rxlen = s.rxlen := rfl
@[simp] theorem State.setTxlen_bytecount (v : Len) (s : State) : (s.setTxlen v).bytecount = s.bytecount := rfl
@[simp] theorem State.setTxlen_paylen (v : Len) (s : State) : (s.setTxlen v).paylen = s.paylen := rfl
@[simp] theorem State.setTxlen_result (v : Len) (s : State) : (s.setTxlen v).result = s.result := rfl
@[simp] theorem State.setTxlen_pv (v : Len) (s : State) : (s.setTxlen v).pv = s.pv := rfl
@[simp] theorem State.setTxlen_illegal (v : Len) (s : State) : (s.setTxlen v).illegal = s.illegal := rfl
@[simp] theorem State.setTxlen_buserr (v : Len) (s : State) : (s.setTxlen v).buserr = s.buserr := rfl
@[simp] theorem State.setTxlen_tx (v : Len) (s : State) : (s.setTxlen v).tx = s.tx := rfl
@[simp] theorem State.setTxlen_rx (v : Len) (s : State) : (s.setTxlen v).rx = s.rx := rfl
@[simp] theorem State.setTxlen_drawEpoch (v : Len) (s : State) : (s.setTxlen v).drawEpoch = s.drawEpoch := rfl
@[simp] theorem State.setTxlen_inReset (v : Len) (s : State) : (s.setTxlen v).inReset = s.inReset := rfl
@[simp] theorem State.setTxlen_pending (v : Len) (s : State) : (s.setTxlen v).pending = s.pending := rfl
@[simp] theorem State.setTxlen_reads (v : Len) (s : State) : (s.setTxlen v).reads = s.reads := rfl
@[simp] theorem State.setTxlen_params (v : Len) (s : State) : (s.setTxlen v).params = s.params := rfl
@[simp] theorem State.setTxlen_txAt (v : Len) (s : State) (i : Nat) : (s.setTxlen v).txAt i = s.txAt i := rfl
@[simp] theorem State.setTxlen_rxAt (v : Len) (s : State) (i : Nat) : (s.setTxlen v).rxAt i = s.rxAt i := rfl

/-! ### setRxlen -/

@[simp] theorem State.setRxlen_crc (v : Len) (s : State) : (s.setRxlen v).crc = s.crc := rfl
@[simp] theorem State.setRxlen_slave (v : Len) (s : State) : (s.setRxlen v).slave = s.slave := rfl
@[simp] theorem State.setRxlen_addr (v : Len) (s : State) : (s.setRxlen v).addr = s.addr := rfl
@[simp] theorem State.setRxlen_count (v : Len) (s : State) : (s.setRxlen v).count = s.count := rfl
@[simp] theorem State.setRxlen_value (v : Len) (s : State) : (s.setRxlen v).value = s.value := rfl
@[simp] theorem State.setRxlen_regpair (v : Len) (s : State) : (s.setRxlen v).regpair = s.regpair := rfl
@[simp] theorem State.setRxlen_tag (v : Len) (s : State) : (s.setRxlen v).tag = s.tag := rfl
@[simp] theorem State.setRxlen_txlen (v : Len) (s : State) : (s.setRxlen v).txlen = s.txlen := rfl
@[simp] theorem State.setRxlen_rxlen (v : Len) (s : State) : (s.setRxlen v).rxlen = v := rfl
@[simp] theorem State.setRxlen_bytecount (v : Len) (s : State) : (s.setRxlen v).bytecount = s.bytecount := rfl
@[simp] theorem State.setRxlen_paylen (v : Len) (s : State) : (s.setRxlen v).paylen = s.paylen := rfl
@[simp] theorem State.setRxlen_result (v : Len) (s : State) : (s.setRxlen v).result = s.result := rfl
@[simp] theorem State.setRxlen_pv (v : Len) (s : State) : (s.setRxlen v).pv = s.pv := rfl
@[simp] theorem State.setRxlen_illegal (v : Len) (s : State) : (s.setRxlen v).illegal = s.illegal := rfl
@[simp] theorem State.setRxlen_buserr (v : Len) (s : State) : (s.setRxlen v).buserr = s.buserr := rfl
@[simp] theorem State.setRxlen_tx (v : Len) (s : State) : (s.setRxlen v).tx = s.tx := rfl
@[simp] theorem State.setRxlen_rx (v : Len) (s : State) : (s.setRxlen v).rx = s.rx := rfl
@[simp] theorem State.setRxlen_drawEpoch (v : Len) (s : State) : (s.setRxlen v).drawEpoch = s.drawEpoch := rfl
@[simp] theorem State.setRxlen_inReset (v : Len) (s : State) : (s.setRxlen v).inReset = s.inReset := rfl
@[simp] theorem State.setRxlen_pending (v : Len) (s : State) : (s.setRxlen v).pending = s.pending := rfl
@[simp] theorem State.setRxlen_reads (v : Len) (s : State) : (s.setRxlen v).reads = s.reads := rfl
@[simp] theorem State.setRxlen_params (v : Len) (s : State) : (s.setRxlen v).params = s.params := rfl
@[simp] theorem State.setRxlen_txAt (v : Len) (s : State) (i : Nat) : (s.setRxlen v).txAt i = s.txAt i := rfl
@[simp] theorem State.setRxlen_rxAt (v : Len) (s : State) (i : Nat) : (s.setRxlen v).rxAt i = s.rxAt i := rfl

/-! ### setBytecount -/

@[simp] theorem State.setBytecount_crc (v : Byte) (s : State) : (s.setBytecount v).crc = s.crc := rfl
@[simp] theorem State.setBytecount_slave (v : Byte) (s : State) : (s.setBytecount v).slave = s.slave := rfl
@[simp] theorem State.setBytecount_addr (v : Byte) (s : State) : (s.setBytecount v).addr = s.addr := rfl
@[simp] theorem State.setBytecount_count (v : Byte) (s : State) : (s.setBytecount v).count = s.count := rfl
@[simp] theorem State.setBytecount_value (v : Byte) (s : State) : (s.setBytecount v).value = s.value := rfl
@[simp] theorem State.setBytecount_regpair (v : Byte) (s : State) : (s.setBytecount v).regpair = s.regpair := rfl
@[simp] theorem State.setBytecount_tag (v : Byte) (s : State) : (s.setBytecount v).tag = s.tag := rfl
@[simp] theorem State.setBytecount_txlen (v : Byte) (s : State) : (s.setBytecount v).txlen = s.txlen := rfl
@[simp] theorem State.setBytecount_rxlen (v : Byte) (s : State) : (s.setBytecount v).rxlen = s.rxlen := rfl
@[simp] theorem State.setBytecount_bytecount (v : Byte) (s : State) : (s.setBytecount v).bytecount = v := rfl
@[simp] theorem State.setBytecount_paylen (v : Byte) (s : State) : (s.setBytecount v).paylen = s.paylen := rfl
@[simp] theorem State.setBytecount_result (v : Byte) (s : State) : (s.setBytecount v).result = s.result := rfl
@[simp] theorem State.setBytecount_pv (v : Byte) (s : State) : (s.setBytecount v).pv = s.pv := rfl
@[simp] theorem State.setBytecount_illegal (v : Byte) (s : State) : (s.setBytecount v).illegal = s.illegal := rfl
@[simp] theorem State.setBytecount_buserr (v : Byte) (s : State) : (s.setBytecount v).buserr = s.buserr := rfl
@[simp] theorem State.setBytecount_tx (v : Byte) (s : State) : (s.setBytecount v).tx = s.tx := rfl
@[simp] theorem State.setBytecount_rx (v : Byte) (s : State) : (s.setBytecount v).rx = s.rx := rfl
@[simp] theorem State.setBytecount_drawEpoch (v : Byte) (s : State) : (s.setBytecount v).drawEpoch = s.drawEpoch := rfl
@[simp] theorem State.setBytecount_inReset (v : Byte) (s : State) : (s.setBytecount v).inReset = s.inReset := rfl
@[simp] theorem State.setBytecount_pending (v : Byte) (s : State) : (s.setBytecount v).pending = s.pending := rfl
@[simp] theorem State.setBytecount_reads (v : Byte) (s : State) : (s.setBytecount v).reads = s.reads := rfl
@[simp] theorem State.setBytecount_params (v : Byte) (s : State) : (s.setBytecount v).params = s.params := rfl
@[simp] theorem State.setBytecount_txAt (v : Byte) (s : State) (i : Nat) : (s.setBytecount v).txAt i = s.txAt i := rfl
@[simp] theorem State.setBytecount_rxAt (v : Byte) (s : State) (i : Nat) : (s.setBytecount v).rxAt i = s.rxAt i := rfl

/-! ### setPaylen -/

@[simp] theorem State.setPaylen_crc (v : Len) (s : State) : (s.setPaylen v).crc = s.crc := rfl
@[simp] theorem State.setPaylen_slave (v : Len) (s : State) : (s.setPaylen v).slave = s.slave := rfl
@[simp] theorem State.setPaylen_addr (v : Len) (s : State) : (s.setPaylen v).addr = s.addr := rfl
@[simp] theorem State.setPaylen_count (v : Len) (s : State) : (s.setPaylen v).count = s.count := rfl
@[simp] theorem State.setPaylen_value (v : Len) (s : State) : (s.setPaylen v).value = s.value := rfl
@[simp] theorem State.setPaylen_regpair (v : Len) (s : State) : (s.setPaylen v).regpair = s.regpair := rfl
@[simp] theorem State.setPaylen_tag (v : Len) (s : State) : (s.setPaylen v).tag = s.tag := rfl
@[simp] theorem State.setPaylen_txlen (v : Len) (s : State) : (s.setPaylen v).txlen = s.txlen := rfl
@[simp] theorem State.setPaylen_rxlen (v : Len) (s : State) : (s.setPaylen v).rxlen = s.rxlen := rfl
@[simp] theorem State.setPaylen_bytecount (v : Len) (s : State) : (s.setPaylen v).bytecount = s.bytecount := rfl
@[simp] theorem State.setPaylen_paylen (v : Len) (s : State) : (s.setPaylen v).paylen = v := rfl
@[simp] theorem State.setPaylen_result (v : Len) (s : State) : (s.setPaylen v).result = s.result := rfl
@[simp] theorem State.setPaylen_pv (v : Len) (s : State) : (s.setPaylen v).pv = s.pv := rfl
@[simp] theorem State.setPaylen_illegal (v : Len) (s : State) : (s.setPaylen v).illegal = s.illegal := rfl
@[simp] theorem State.setPaylen_buserr (v : Len) (s : State) : (s.setPaylen v).buserr = s.buserr := rfl
@[simp] theorem State.setPaylen_tx (v : Len) (s : State) : (s.setPaylen v).tx = s.tx := rfl
@[simp] theorem State.setPaylen_rx (v : Len) (s : State) : (s.setPaylen v).rx = s.rx := rfl
@[simp] theorem State.setPaylen_drawEpoch (v : Len) (s : State) : (s.setPaylen v).drawEpoch = s.drawEpoch := rfl
@[simp] theorem State.setPaylen_inReset (v : Len) (s : State) : (s.setPaylen v).inReset = s.inReset := rfl
@[simp] theorem State.setPaylen_pending (v : Len) (s : State) : (s.setPaylen v).pending = s.pending := rfl
@[simp] theorem State.setPaylen_reads (v : Len) (s : State) : (s.setPaylen v).reads = s.reads := rfl
@[simp] theorem State.setPaylen_params (v : Len) (s : State) : (s.setPaylen v).params = s.params := rfl
@[simp] theorem State.setPaylen_txAt (v : Len) (s : State) (i : Nat) : (s.setPaylen v).txAt i = s.txAt i := rfl
@[simp] theorem State.setPaylen_rxAt (v : Len) (s : State) (i : Nat) : (s.setPaylen v).rxAt i = s.rxAt i := rfl

/-! ### setResult -/

@[simp] theorem State.setResult_crc (v : ResultCode) (s : State) : (s.setResult v).crc = s.crc := rfl
@[simp] theorem State.setResult_slave (v : ResultCode) (s : State) : (s.setResult v).slave = s.slave := rfl
@[simp] theorem State.setResult_addr (v : ResultCode) (s : State) : (s.setResult v).addr = s.addr := rfl
@[simp] theorem State.setResult_count (v : ResultCode) (s : State) : (s.setResult v).count = s.count := rfl
@[simp] theorem State.setResult_value (v : ResultCode) (s : State) : (s.setResult v).value = s.value := rfl
@[simp] theorem State.setResult_regpair (v : ResultCode) (s : State) : (s.setResult v).regpair = s.regpair := rfl
@[simp] theorem State.setResult_tag (v : ResultCode) (s : State) : (s.setResult v).tag = s.tag := rfl
@[simp] theorem State.setResult_txlen (v : ResultCode) (s : State) : (s.setResult v).txlen = s.txlen := rfl
@[simp] theorem State.setResult_rxlen (v : ResultCode) (s : State) : (s.setResult v).rxlen = s.rxlen := rfl
@[simp] theorem State.setResult_bytecount (v : ResultCode) (s : State) : (s.setResult v).bytecount = s.bytecount := rfl
@[simp] theorem State.setResult_paylen (v : ResultCode) (s : State) : (s.setResult v).paylen = s.paylen := rfl
@[simp] theorem State.setResult_result (v : ResultCode) (s : State) : (s.setResult v).result = v := rfl
@[simp] theorem State.setResult_pv (v : ResultCode) (s : State) : (s.setResult v).pv = s.pv := rfl
@[simp] theorem State.setResult_illegal (v : ResultCode) (s : State) : (s.setResult v).illegal = s.illegal := rfl
@[simp] theorem State.setResult_buserr (v : ResultCode) (s : State) : (s.setResult v).buserr = s.buserr := rfl
@[simp] theorem State.setResult_tx (v : ResultCode) (s : State) : (s.setResult v).tx = s.tx := rfl
@[simp] theorem State.setResult_rx (v : ResultCode) (s : State) : (s.setResult v).rx = s.rx := rfl
@[simp] theorem State.setResult_drawEpoch (v : ResultCode) (s : State) : (s.setResult v).drawEpoch = s.drawEpoch := rfl
@[simp] theorem State.setResult_inReset (v : ResultCode) (s : State) : (s.setResult v).inReset = s.inReset := rfl
@[simp] theorem State.setResult_pending (v : ResultCode) (s : State) : (s.setResult v).pending = s.pending := rfl
@[simp] theorem State.setResult_reads (v : ResultCode) (s : State) : (s.setResult v).reads = s.reads := rfl
@[simp] theorem State.setResult_params (v : ResultCode) (s : State) : (s.setResult v).params = s.params := rfl
@[simp] theorem State.setResult_txAt (v : ResultCode) (s : State) (i : Nat) : (s.setResult v).txAt i = s.txAt i := rfl
@[simp] theorem State.setResult_rxAt (v : ResultCode) (s : State) (i : Nat) : (s.setResult v).rxAt i = s.rxAt i := rfl

/-! ### setPv -/

@[simp] theorem State.setPv_crc (v : Bool) (s : State) : (s.setPv v).crc = s.crc := rfl
@[simp] theorem State.setPv_slave (v : Bool) (s : State) : (s.setPv v).slave = s.slave := rfl
@[simp] theorem State.setPv_addr (v : Bool) (s : State) : (s.setPv v).addr = s.addr := rfl
@[simp] theorem State.setPv_count (v : Bool) (s : State) : (s.setPv v).count = s.count := rfl
@[simp] theorem State.setPv_value (v : Bool) (s : State) : (s.setPv v).value = s.value := rfl
@[simp] theorem State.setPv_regpair (v : Bool) (s : State) : (s.setPv v).regpair = s.regpair := rfl
@[simp] theorem State.setPv_tag (v : Bool) (s : State) : (s.setPv v).tag = s.tag := rfl
@[simp] theorem State.setPv_txlen (v : Bool) (s : State) : (s.setPv v).txlen = s.txlen := rfl
@[simp] theorem State.setPv_rxlen (v : Bool) (s : State) : (s.setPv v).rxlen = s.rxlen := rfl
@[simp] theorem State.setPv_bytecount (v : Bool) (s : State) : (s.setPv v).bytecount = s.bytecount := rfl
@[simp] theorem State.setPv_paylen (v : Bool) (s : State) : (s.setPv v).paylen = s.paylen := rfl
@[simp] theorem State.setPv_result (v : Bool) (s : State) : (s.setPv v).result = s.result := rfl
@[simp] theorem State.setPv_pv (v : Bool) (s : State) : (s.setPv v).pv = v := rfl
@[simp] theorem State.setPv_illegal (v : Bool) (s : State) : (s.setPv v).illegal = s.illegal := rfl
@[simp] theorem State.setPv_buserr (v : Bool) (s : State) : (s.setPv v).buserr = s.buserr := rfl
@[simp] theorem State.setPv_tx (v : Bool) (s : State) : (s.setPv v).tx = s.tx := rfl
@[simp] theorem State.setPv_rx (v : Bool) (s : State) : (s.setPv v).rx = s.rx := rfl
@[simp] theorem State.setPv_drawEpoch (v : Bool) (s : State) : (s.setPv v).drawEpoch = s.drawEpoch := rfl
@[simp] theorem State.setPv_inReset (v : Bool) (s : State) : (s.setPv v).inReset = s.inReset := rfl
@[simp] theorem State.setPv_pending (v : Bool) (s : State) : (s.setPv v).pending = s.pending := rfl
@[simp] theorem State.setPv_reads (v : Bool) (s : State) : (s.setPv v).reads = s.reads := rfl
@[simp] theorem State.setPv_params (v : Bool) (s : State) : (s.setPv v).params = s.params := rfl
@[simp] theorem State.setPv_txAt (v : Bool) (s : State) (i : Nat) : (s.setPv v).txAt i = s.txAt i := rfl
@[simp] theorem State.setPv_rxAt (v : Bool) (s : State) (i : Nat) : (s.setPv v).rxAt i = s.rxAt i := rfl

/-! ### setTx -/

@[simp] theorem State.setTx_crc (v : Memory) (s : State) : (s.setTx v).crc = s.crc := rfl
@[simp] theorem State.setTx_slave (v : Memory) (s : State) : (s.setTx v).slave = s.slave := rfl
@[simp] theorem State.setTx_addr (v : Memory) (s : State) : (s.setTx v).addr = s.addr := rfl
@[simp] theorem State.setTx_count (v : Memory) (s : State) : (s.setTx v).count = s.count := rfl
@[simp] theorem State.setTx_value (v : Memory) (s : State) : (s.setTx v).value = s.value := rfl
@[simp] theorem State.setTx_regpair (v : Memory) (s : State) : (s.setTx v).regpair = s.regpair := rfl
@[simp] theorem State.setTx_tag (v : Memory) (s : State) : (s.setTx v).tag = s.tag := rfl
@[simp] theorem State.setTx_txlen (v : Memory) (s : State) : (s.setTx v).txlen = s.txlen := rfl
@[simp] theorem State.setTx_rxlen (v : Memory) (s : State) : (s.setTx v).rxlen = s.rxlen := rfl
@[simp] theorem State.setTx_bytecount (v : Memory) (s : State) : (s.setTx v).bytecount = s.bytecount := rfl
@[simp] theorem State.setTx_paylen (v : Memory) (s : State) : (s.setTx v).paylen = s.paylen := rfl
@[simp] theorem State.setTx_result (v : Memory) (s : State) : (s.setTx v).result = s.result := rfl
@[simp] theorem State.setTx_pv (v : Memory) (s : State) : (s.setTx v).pv = s.pv := rfl
@[simp] theorem State.setTx_illegal (v : Memory) (s : State) : (s.setTx v).illegal = s.illegal := rfl
@[simp] theorem State.setTx_buserr (v : Memory) (s : State) : (s.setTx v).buserr = s.buserr := rfl
@[simp] theorem State.setTx_tx (v : Memory) (s : State) : (s.setTx v).tx = v := rfl
@[simp] theorem State.setTx_rx (v : Memory) (s : State) : (s.setTx v).rx = s.rx := rfl
@[simp] theorem State.setTx_drawEpoch (v : Memory) (s : State) : (s.setTx v).drawEpoch = s.drawEpoch := rfl
@[simp] theorem State.setTx_inReset (v : Memory) (s : State) : (s.setTx v).inReset = s.inReset := rfl
@[simp] theorem State.setTx_pending (v : Memory) (s : State) : (s.setTx v).pending = s.pending := rfl
@[simp] theorem State.setTx_reads (v : Memory) (s : State) : (s.setTx v).reads = s.reads := rfl
@[simp] theorem State.setTx_params (v : Memory) (s : State) : (s.setTx v).params = s.params := rfl
@[simp] theorem State.setTx_rxAt (v : Memory) (s : State) (i : Nat) : (s.setTx v).rxAt i = s.rxAt i := rfl

/-! ### setRx -/

@[simp] theorem State.setRx_crc (v : Memory) (s : State) : (s.setRx v).crc = s.crc := rfl
@[simp] theorem State.setRx_slave (v : Memory) (s : State) : (s.setRx v).slave = s.slave := rfl
@[simp] theorem State.setRx_addr (v : Memory) (s : State) : (s.setRx v).addr = s.addr := rfl
@[simp] theorem State.setRx_count (v : Memory) (s : State) : (s.setRx v).count = s.count := rfl
@[simp] theorem State.setRx_value (v : Memory) (s : State) : (s.setRx v).value = s.value := rfl
@[simp] theorem State.setRx_regpair (v : Memory) (s : State) : (s.setRx v).regpair = s.regpair := rfl
@[simp] theorem State.setRx_tag (v : Memory) (s : State) : (s.setRx v).tag = s.tag := rfl
@[simp] theorem State.setRx_txlen (v : Memory) (s : State) : (s.setRx v).txlen = s.txlen := rfl
@[simp] theorem State.setRx_rxlen (v : Memory) (s : State) : (s.setRx v).rxlen = s.rxlen := rfl
@[simp] theorem State.setRx_bytecount (v : Memory) (s : State) : (s.setRx v).bytecount = s.bytecount := rfl
@[simp] theorem State.setRx_paylen (v : Memory) (s : State) : (s.setRx v).paylen = s.paylen := rfl
@[simp] theorem State.setRx_result (v : Memory) (s : State) : (s.setRx v).result = s.result := rfl
@[simp] theorem State.setRx_pv (v : Memory) (s : State) : (s.setRx v).pv = s.pv := rfl
@[simp] theorem State.setRx_illegal (v : Memory) (s : State) : (s.setRx v).illegal = s.illegal := rfl
@[simp] theorem State.setRx_buserr (v : Memory) (s : State) : (s.setRx v).buserr = s.buserr := rfl
@[simp] theorem State.setRx_tx (v : Memory) (s : State) : (s.setRx v).tx = s.tx := rfl
@[simp] theorem State.setRx_rx (v : Memory) (s : State) : (s.setRx v).rx = v := rfl
@[simp] theorem State.setRx_drawEpoch (v : Memory) (s : State) : (s.setRx v).drawEpoch = s.drawEpoch := rfl
@[simp] theorem State.setRx_inReset (v : Memory) (s : State) : (s.setRx v).inReset = s.inReset := rfl
@[simp] theorem State.setRx_pending (v : Memory) (s : State) : (s.setRx v).pending = s.pending := rfl
@[simp] theorem State.setRx_reads (v : Memory) (s : State) : (s.setRx v).reads = s.reads := rfl
@[simp] theorem State.setRx_params (v : Memory) (s : State) : (s.setRx v).params = s.params := rfl
@[simp] theorem State.setRx_txAt (v : Memory) (s : State) (i : Nat) : (s.setRx v).txAt i = s.txAt i := rfl

/-! ### raiseIllegal -/

@[simp] theorem State.raiseIllegal_crc (s : State) : s.raiseIllegal.crc = s.crc := rfl
@[simp] theorem State.raiseIllegal_slave (s : State) : s.raiseIllegal.slave = s.slave := rfl
@[simp] theorem State.raiseIllegal_addr (s : State) : s.raiseIllegal.addr = s.addr := rfl
@[simp] theorem State.raiseIllegal_count (s : State) : s.raiseIllegal.count = s.count := rfl
@[simp] theorem State.raiseIllegal_value (s : State) : s.raiseIllegal.value = s.value := rfl
@[simp] theorem State.raiseIllegal_regpair (s : State) : s.raiseIllegal.regpair = s.regpair := rfl
@[simp] theorem State.raiseIllegal_tag (s : State) : s.raiseIllegal.tag = s.tag := rfl
@[simp] theorem State.raiseIllegal_txlen (s : State) : s.raiseIllegal.txlen = s.txlen := rfl
@[simp] theorem State.raiseIllegal_rxlen (s : State) : s.raiseIllegal.rxlen = s.rxlen := rfl
@[simp] theorem State.raiseIllegal_bytecount (s : State) : s.raiseIllegal.bytecount = s.bytecount := rfl
@[simp] theorem State.raiseIllegal_paylen (s : State) : s.raiseIllegal.paylen = s.paylen := rfl
@[simp] theorem State.raiseIllegal_result (s : State) : s.raiseIllegal.result = s.result := rfl
@[simp] theorem State.raiseIllegal_pv (s : State) : s.raiseIllegal.pv = s.pv := rfl
@[simp] theorem State.raiseIllegal_illegal (s : State) : s.raiseIllegal.illegal = true := rfl
@[simp] theorem State.raiseIllegal_buserr (s : State) : s.raiseIllegal.buserr = s.buserr := rfl
@[simp] theorem State.raiseIllegal_tx (s : State) : s.raiseIllegal.tx = s.tx := rfl
@[simp] theorem State.raiseIllegal_rx (s : State) : s.raiseIllegal.rx = s.rx := rfl
@[simp] theorem State.raiseIllegal_drawEpoch (s : State) : s.raiseIllegal.drawEpoch = s.drawEpoch := rfl
@[simp] theorem State.raiseIllegal_inReset (s : State) : s.raiseIllegal.inReset = s.inReset := rfl
@[simp] theorem State.raiseIllegal_pending (s : State) : s.raiseIllegal.pending = s.pending := rfl
@[simp] theorem State.raiseIllegal_reads (s : State) : s.raiseIllegal.reads = s.reads := rfl
@[simp] theorem State.raiseIllegal_params (s : State) : s.raiseIllegal.params = s.params := rfl
@[simp] theorem State.raiseIllegal_txAt (s : State) (i : Nat) : s.raiseIllegal.txAt i = s.txAt i := rfl
@[simp] theorem State.raiseIllegal_rxAt (s : State) (i : Nat) : s.raiseIllegal.rxAt i = s.rxAt i := rfl

/-! ### raiseBuserr -/

@[simp] theorem State.raiseBuserr_crc (s : State) : s.raiseBuserr.crc = s.crc := rfl
@[simp] theorem State.raiseBuserr_slave (s : State) : s.raiseBuserr.slave = s.slave := rfl
@[simp] theorem State.raiseBuserr_addr (s : State) : s.raiseBuserr.addr = s.addr := rfl
@[simp] theorem State.raiseBuserr_count (s : State) : s.raiseBuserr.count = s.count := rfl
@[simp] theorem State.raiseBuserr_value (s : State) : s.raiseBuserr.value = s.value := rfl
@[simp] theorem State.raiseBuserr_regpair (s : State) : s.raiseBuserr.regpair = s.regpair := rfl
@[simp] theorem State.raiseBuserr_tag (s : State) : s.raiseBuserr.tag = s.tag := rfl
@[simp] theorem State.raiseBuserr_txlen (s : State) : s.raiseBuserr.txlen = s.txlen := rfl
@[simp] theorem State.raiseBuserr_rxlen (s : State) : s.raiseBuserr.rxlen = s.rxlen := rfl
@[simp] theorem State.raiseBuserr_bytecount (s : State) : s.raiseBuserr.bytecount = s.bytecount := rfl
@[simp] theorem State.raiseBuserr_paylen (s : State) : s.raiseBuserr.paylen = s.paylen := rfl
@[simp] theorem State.raiseBuserr_result (s : State) : s.raiseBuserr.result = s.result := rfl
@[simp] theorem State.raiseBuserr_pv (s : State) : s.raiseBuserr.pv = s.pv := rfl
@[simp] theorem State.raiseBuserr_illegal (s : State) : s.raiseBuserr.illegal = s.illegal := rfl
@[simp] theorem State.raiseBuserr_buserr (s : State) : s.raiseBuserr.buserr = true := rfl
@[simp] theorem State.raiseBuserr_tx (s : State) : s.raiseBuserr.tx = s.tx := rfl
@[simp] theorem State.raiseBuserr_rx (s : State) : s.raiseBuserr.rx = s.rx := rfl
@[simp] theorem State.raiseBuserr_drawEpoch (s : State) : s.raiseBuserr.drawEpoch = s.drawEpoch := rfl
@[simp] theorem State.raiseBuserr_inReset (s : State) : s.raiseBuserr.inReset = s.inReset := rfl
@[simp] theorem State.raiseBuserr_pending (s : State) : s.raiseBuserr.pending = s.pending := rfl
@[simp] theorem State.raiseBuserr_reads (s : State) : s.raiseBuserr.reads = s.reads := rfl
@[simp] theorem State.raiseBuserr_params (s : State) : s.raiseBuserr.params = s.params := rfl
@[simp] theorem State.raiseBuserr_txAt (s : State) (i : Nat) : s.raiseBuserr.txAt i = s.txAt i := rfl
@[simp] theorem State.raiseBuserr_rxAt (s : State) (i : Nat) : s.raiseBuserr.rxAt i = s.rxAt i := rfl

/-! ### pushRead -/

@[simp] theorem State.pushRead_crc (v : Word) (s : State) : (s.pushRead v).crc = s.crc := rfl
@[simp] theorem State.pushRead_slave (v : Word) (s : State) : (s.pushRead v).slave = s.slave := rfl
@[simp] theorem State.pushRead_addr (v : Word) (s : State) : (s.pushRead v).addr = s.addr := rfl
@[simp] theorem State.pushRead_count (v : Word) (s : State) : (s.pushRead v).count = s.count := rfl
@[simp] theorem State.pushRead_value (v : Word) (s : State) : (s.pushRead v).value = s.value := rfl
@[simp] theorem State.pushRead_regpair (v : Word) (s : State) : (s.pushRead v).regpair = s.regpair := rfl
@[simp] theorem State.pushRead_tag (v : Word) (s : State) : (s.pushRead v).tag = s.tag := rfl
@[simp] theorem State.pushRead_txlen (v : Word) (s : State) : (s.pushRead v).txlen = s.txlen := rfl
@[simp] theorem State.pushRead_rxlen (v : Word) (s : State) : (s.pushRead v).rxlen = s.rxlen := rfl
@[simp] theorem State.pushRead_bytecount (v : Word) (s : State) : (s.pushRead v).bytecount = s.bytecount := rfl
@[simp] theorem State.pushRead_paylen (v : Word) (s : State) : (s.pushRead v).paylen = s.paylen := rfl
@[simp] theorem State.pushRead_result (v : Word) (s : State) : (s.pushRead v).result = s.result := rfl
@[simp] theorem State.pushRead_pv (v : Word) (s : State) : (s.pushRead v).pv = s.pv := rfl
@[simp] theorem State.pushRead_illegal (v : Word) (s : State) : (s.pushRead v).illegal = s.illegal := rfl
@[simp] theorem State.pushRead_buserr (v : Word) (s : State) : (s.pushRead v).buserr = s.buserr := rfl
@[simp] theorem State.pushRead_tx (v : Word) (s : State) : (s.pushRead v).tx = s.tx := rfl
@[simp] theorem State.pushRead_rx (v : Word) (s : State) : (s.pushRead v).rx = s.rx := rfl
@[simp] theorem State.pushRead_drawEpoch (v : Word) (s : State) : (s.pushRead v).drawEpoch = s.drawEpoch := rfl
@[simp] theorem State.pushRead_inReset (v : Word) (s : State) : (s.pushRead v).inReset = s.inReset := rfl
@[simp] theorem State.pushRead_pending (v : Word) (s : State) : (s.pushRead v).pending = s.pending := rfl
@[simp] theorem State.pushRead_reads (v : Word) (s : State) : (s.pushRead v).reads = v :: s.reads := rfl
@[simp] theorem State.pushRead_params (v : Word) (s : State) : (s.pushRead v).params = s.params := rfl
@[simp] theorem State.pushRead_txAt (v : Word) (s : State) (i : Nat) : (s.pushRead v).txAt i = s.txAt i := rfl
@[simp] theorem State.pushRead_rxAt (v : Word) (s : State) (i : Nat) : (s.pushRead v).rxAt i = s.rxAt i := rfl

/-! ### setPending -/

@[simp] theorem State.setPending_crc (v : List Event) (s : State) : (s.setPending v).crc = s.crc := rfl
@[simp] theorem State.setPending_slave (v : List Event) (s : State) : (s.setPending v).slave = s.slave := rfl
@[simp] theorem State.setPending_addr (v : List Event) (s : State) : (s.setPending v).addr = s.addr := rfl
@[simp] theorem State.setPending_count (v : List Event) (s : State) : (s.setPending v).count = s.count := rfl
@[simp] theorem State.setPending_value (v : List Event) (s : State) : (s.setPending v).value = s.value := rfl
@[simp] theorem State.setPending_regpair (v : List Event) (s : State) : (s.setPending v).regpair = s.regpair := rfl
@[simp] theorem State.setPending_tag (v : List Event) (s : State) : (s.setPending v).tag = s.tag := rfl
@[simp] theorem State.setPending_txlen (v : List Event) (s : State) : (s.setPending v).txlen = s.txlen := rfl
@[simp] theorem State.setPending_rxlen (v : List Event) (s : State) : (s.setPending v).rxlen = s.rxlen := rfl
@[simp] theorem State.setPending_bytecount (v : List Event) (s : State) : (s.setPending v).bytecount = s.bytecount := rfl
@[simp] theorem State.setPending_paylen (v : List Event) (s : State) : (s.setPending v).paylen = s.paylen := rfl
@[simp] theorem State.setPending_result (v : List Event) (s : State) : (s.setPending v).result = s.result := rfl
@[simp] theorem State.setPending_pv (v : List Event) (s : State) : (s.setPending v).pv = s.pv := rfl
@[simp] theorem State.setPending_illegal (v : List Event) (s : State) : (s.setPending v).illegal = s.illegal := rfl
@[simp] theorem State.setPending_buserr (v : List Event) (s : State) : (s.setPending v).buserr = s.buserr := rfl
@[simp] theorem State.setPending_tx (v : List Event) (s : State) : (s.setPending v).tx = s.tx := rfl
@[simp] theorem State.setPending_rx (v : List Event) (s : State) : (s.setPending v).rx = s.rx := rfl
@[simp] theorem State.setPending_drawEpoch (v : List Event) (s : State) : (s.setPending v).drawEpoch = s.drawEpoch := rfl
@[simp] theorem State.setPending_inReset (v : List Event) (s : State) : (s.setPending v).inReset = s.inReset := rfl
@[simp] theorem State.setPending_pending (v : List Event) (s : State) : (s.setPending v).pending = v := rfl
@[simp] theorem State.setPending_reads (v : List Event) (s : State) : (s.setPending v).reads = s.reads := rfl
@[simp] theorem State.setPending_params (v : List Event) (s : State) : (s.setPending v).params = s.params := rfl
@[simp] theorem State.setPending_txAt (v : List Event) (s : State) (i : Nat) : (s.setPending v).txAt i = s.txAt i := rfl
@[simp] theorem State.setPending_rxAt (v : List Event) (s : State) (i : Nat) : (s.setPending v).rxAt i = s.rxAt i := rfl

/-! ### setInReset -/

@[simp] theorem State.setInReset_crc (v : Bool) (s : State) : (s.setInReset v).crc = s.crc := rfl
@[simp] theorem State.setInReset_slave (v : Bool) (s : State) : (s.setInReset v).slave = s.slave := rfl
@[simp] theorem State.setInReset_addr (v : Bool) (s : State) : (s.setInReset v).addr = s.addr := rfl
@[simp] theorem State.setInReset_count (v : Bool) (s : State) : (s.setInReset v).count = s.count := rfl
@[simp] theorem State.setInReset_value (v : Bool) (s : State) : (s.setInReset v).value = s.value := rfl
@[simp] theorem State.setInReset_regpair (v : Bool) (s : State) : (s.setInReset v).regpair = s.regpair := rfl
@[simp] theorem State.setInReset_tag (v : Bool) (s : State) : (s.setInReset v).tag = s.tag := rfl
@[simp] theorem State.setInReset_txlen (v : Bool) (s : State) : (s.setInReset v).txlen = s.txlen := rfl
@[simp] theorem State.setInReset_rxlen (v : Bool) (s : State) : (s.setInReset v).rxlen = s.rxlen := rfl
@[simp] theorem State.setInReset_bytecount (v : Bool) (s : State) : (s.setInReset v).bytecount = s.bytecount := rfl
@[simp] theorem State.setInReset_paylen (v : Bool) (s : State) : (s.setInReset v).paylen = s.paylen := rfl
@[simp] theorem State.setInReset_result (v : Bool) (s : State) : (s.setInReset v).result = s.result := rfl
@[simp] theorem State.setInReset_pv (v : Bool) (s : State) : (s.setInReset v).pv = s.pv := rfl
@[simp] theorem State.setInReset_illegal (v : Bool) (s : State) : (s.setInReset v).illegal = s.illegal := rfl
@[simp] theorem State.setInReset_buserr (v : Bool) (s : State) : (s.setInReset v).buserr = s.buserr := rfl
@[simp] theorem State.setInReset_tx (v : Bool) (s : State) : (s.setInReset v).tx = s.tx := rfl
@[simp] theorem State.setInReset_rx (v : Bool) (s : State) : (s.setInReset v).rx = s.rx := rfl
@[simp] theorem State.setInReset_drawEpoch (v : Bool) (s : State) : (s.setInReset v).drawEpoch = s.drawEpoch := rfl
@[simp] theorem State.setInReset_inReset (v : Bool) (s : State) : (s.setInReset v).inReset = v := rfl
@[simp] theorem State.setInReset_pending (v : Bool) (s : State) : (s.setInReset v).pending = s.pending := rfl
@[simp] theorem State.setInReset_reads (v : Bool) (s : State) : (s.setInReset v).reads = s.reads := rfl
@[simp] theorem State.setInReset_params (v : Bool) (s : State) : (s.setInReset v).params = s.params := rfl
@[simp] theorem State.setInReset_txAt (v : Bool) (s : State) (i : Nat) : (s.setInReset v).txAt i = s.txAt i := rfl
@[simp] theorem State.setInReset_rxAt (v : Bool) (s : State) (i : Nat) : (s.setInReset v).rxAt i = s.rxAt i := rfl

/-! ### release -/

@[simp] theorem State.release_crc (s : State) : s.release.crc = 0xFFFF := rfl
@[simp] theorem State.release_slave (s : State) : s.release.slave = 0x00 := rfl
@[simp] theorem State.release_addr (s : State) : s.release.addr = 0x0000 := rfl
@[simp] theorem State.release_count (s : State) : s.release.count = 0x0002 := rfl
@[simp] theorem State.release_value (s : State) : s.release.value = 0x00000000 := rfl
@[simp] theorem State.release_regpair (s : State) : s.release.regpair = 0x00000000 := rfl
@[simp] theorem State.release_tag (s : State) : s.release.tag = Tag.f32 := rfl
@[simp] theorem State.release_txlen (s : State) : s.release.txlen = 0 := rfl
@[simp] theorem State.release_rxlen (s : State) : s.release.rxlen = 0 := rfl
@[simp] theorem State.release_bytecount (s : State) : s.release.bytecount = 0 := rfl
@[simp] theorem State.release_paylen (s : State) : s.release.paylen = 0 := rfl
@[simp] theorem State.release_result (s : State) : s.release.result = ResultCode.none := rfl
@[simp] theorem State.release_pv (s : State) : s.release.pv = false := rfl
@[simp] theorem State.release_illegal (s : State) : s.release.illegal = false := rfl
@[simp] theorem State.release_buserr (s : State) : s.release.buserr = false := rfl
@[simp] theorem State.release_tx (s : State) : s.release.tx = [] := rfl
@[simp] theorem State.release_rx (s : State) : s.release.rx = [] := rfl
@[simp] theorem State.release_drawEpoch (s : State) : s.release.drawEpoch = s.drawEpoch + 1 := rfl
@[simp] theorem State.release_inReset (s : State) : s.release.inReset = false := rfl
@[simp] theorem State.release_pending (s : State) : s.release.pending = s.pending := rfl
@[simp] theorem State.release_reads (s : State) : s.release.reads = s.reads := rfl
@[simp] theorem State.release_params (s : State) : s.release.params = s.params := rfl

/-! ### The buffers as slices -/

@[simp] theorem State.txBytes_length (s : State) (i n : Nat) : (s.txBytes i n).length = n := by
  induction n generalizing i with
  | zero => rfl
  | succ n ih => simp [State.txBytes, ih]

@[simp] theorem State.rxBytes_length (s : State) (i n : Nat) : (s.rxBytes i n).length = n := by
  induction n generalizing i with
  | zero => rfl
  | succ n ih => simp [State.rxBytes, ih]

/-- A slice of TXBUF depends on its own bytes only. -/
theorem State.txBytes_congr {s t : State} {i n : Nat} (h : ∀ j, i ≤ j → j < i + n → s.txAt j = t.txAt j) :
    s.txBytes i n = t.txBytes i n := by
  induction n generalizing i with
  | zero => rfl
  | succ n ih =>
    simp only [State.txBytes]
    rw [h i (by omega) (by omega), ih (fun j h1 h2 => h j (by omega) (by omega))]

/-- A slice of RXBUF depends on its own bytes only. -/
theorem State.rxBytes_congr {s t : State} {i n : Nat} (h : ∀ j, i ≤ j → j < i + n → s.rxAt j = t.rxAt j) :
    s.rxBytes i n = t.rxBytes i n := by
  induction n generalizing i with
  | zero => rfl
  | succ n ih =>
    simp only [State.rxBytes]
    rw [h i (by omega) (by omega), ih (fun j h1 h2 => h j (by omega) (by omega))]

/-- Byte `j` of a slice of TXBUF. -/
theorem State.txBytes_getElem (s : State) (i n j : Nat) (h : j < (s.txBytes i n).length) :
    (s.txBytes i n)[j] = s.txAt (i + j) := by
  induction n generalizing i j with
  | zero => simp [State.txBytes] at h
  | succ n ih =>
    cases j with
    | zero => rfl
    | succ j => simp only [State.txBytes, List.getElem_cons_succ]; rw [ih]; congr 1; omega

/-- Byte `j` of a slice of RXBUF. -/
theorem State.rxBytes_getElem (s : State) (i n j : Nat) (h : j < (s.rxBytes i n).length) :
    (s.rxBytes i n)[j] = s.rxAt (i + j) := by
  induction n generalizing i j with
  | zero => simp [State.rxBytes] at h
  | succ n ih =>
    cases j with
    | zero => rfl
    | succ j => simp only [State.rxBytes, List.getElem_cons_succ]; rw [ih]; congr 1; omega

/-- The slice `TX[0 : n]` as a map over its indexes. -/
theorem State.txBytes_eq_map (s : State) (n : Nat) : s.txBytes 0 n = (List.range n).map s.txAt := by
  apply List.ext_getElem <;> simp [State.txBytes_getElem]

/-- The slice `RX[0 : n]` as a map over its indexes. -/
theorem State.rxBytes_eq_map (s : State) (n : Nat) : s.rxBytes 0 n = (List.range n).map s.rxAt := by
  apply List.ext_getElem <;> simp [State.rxBytes_getElem]

/-- A slice of RXBUF in two parts. -/
theorem State.rxBytes_append (s : State) (i m n : Nat) :
    s.rxBytes i (m + n) = s.rxBytes i m ++ s.rxBytes (i + m) n := by
  apply List.ext_getElem
  · simp
  · intro j h1 h2
    rw [State.rxBytes_getElem, List.getElem_append]
    split
    · rw [State.rxBytes_getElem]
    · rw [State.rxBytes_getElem]; congr 1; simp at *; omega

/-- A slice of TXBUF in two parts. -/
theorem State.txBytes_append (s : State) (i m n : Nat) :
    s.txBytes i (m + n) = s.txBytes i m ++ s.txBytes (i + m) n := by
  apply List.ext_getElem
  · simp
  · intro j h1 h2
    rw [State.txBytes_getElem, List.getElem_append]
    split
    · rw [State.txBytes_getElem]
    · rw [State.txBytes_getElem]; congr 1; simp at *; omega

end Sys2Proof.Machine
end

