-- ==== Sys2Proof/Laws/Bus.lean ====
section
/-! SUPPORT. What the register window, a command issue, the reset line and a step can do, each said once. -/

namespace Sys2Proof.Machine

/-- The aligned offsets 0x400–0x7FC name the entries of TXBUF. -/
theorem Target.ofOffset_txbuf {off : Nat} (h : off % 4 = 0) (lo : 0x400 ≤ off) (hi : off < 0x800) :
    Target.ofOffset off = some (.txbuf (Fin.ofNat 256 ((off - 0x400) / 4))) := by
  simp only [Target.ofOffset]
  rw [if_neg (by omega), if_neg (by omega), if_pos hi]

/-- The aligned offsets 0x800–0xBFC name the entries of RXBUF. -/
theorem Target.ofOffset_rxbuf {off : Nat} (h : off % 4 = 0) (lo : 0x800 ≤ off) (hi : off < 0xC00) :
    Target.ofOffset off = some (.rxbuf (Fin.ofNat 256 ((off - 0x800) / 4))) := by
  simp only [Target.ofOffset]
  rw [if_neg (by omega), if_neg (by omega), if_neg (by omega), if_pos hi]

theorem Target.offset_txbuf (i : Fin 256) : (Target.txbuf i).offset = 0x400 + 4 * i.val := rfl

theorem Target.offset_rxbuf (i : Fin 256) : (Target.rxbuf i).offset = 0x800 + 4 * i.val := rfl

/-- The offset of a register or buffer entry names it again. -/
theorem Target.ofOffset_offset (t : Target) : Target.ofOffset t.offset = some t := by
  cases t with
  | txbuf i =>
    have := i.isLt
    rw [Target.offset_txbuf, Target.ofOffset_txbuf (by omega) (by omega) (by omega)]
    have h : (0x400 + 4 * i.val - 0x400) / 4 = i.val := by omega
    rw [h, Fin.ofNat_val_eq_self]
  | rxbuf i =>
    have := i.isLt
    rw [Target.offset_rxbuf, Target.ofOffset_rxbuf (by omega) (by omega) (by omega)]
    have h : (0x800 + 4 * i.val - 0x800) / 4 = i.val := by omega
    rw [h, Fin.ofNat_val_eq_self]
  | _ => decide

/-- Every offset that names something is in the window. -/
theorem Target.offset_lt (t : Target) : t.offset < Config.regWindow := by
  cases t with
  | txbuf i => have := i.isLt; simp only [Target.offset, Config.regWindow]; omega
  | rxbuf i => have := i.isLt; simp only [Target.offset, Config.regWindow]; omega
  | _ => decide

/-- A 32-bit access at the address of `t` reaches `t`. -/
theorem State.reach_offset (s : State) (t : Target) (k : AccessKind) :
    s.reach { addr := s.params.blockBase + t.offset, bits := 32, kind := k } = .target t := by
  have h := t.offset_lt
  simp only [State.reach, State.windowOffset]
  rw [if_pos ⟨by omega, by omega⟩]
  simp [Target.ofOffset_offset]

/-- Issuing a word that decodes performs the command. -/
theorem issue_ok {w : Word} {i : Instr} (s : State) (h : decode w = .ok i) : issue w s = exec i s := by
  simp [issue, h]

/-- Issuing a word that does not decode raises ILLEGAL. -/
theorem issue_error {w : Word} {e : DecodeError} (s : State) (h : decode w = .error e) :
    issue w s = .next s.raiseIllegal := by
  simp [issue, h]

/-- Everything a command issue can do. -/
theorem issue_cases (w : Word) (s : State) :
    (∃ i, decode w = .ok i ∧ issue w s = exec i s) ∨
    (∃ e, decode w = .error e ∧ issue w s = .next s.raiseIllegal) := by
  cases h : decode w with
  | ok i => exact .inl ⟨i, rfl, issue_ok s h⟩
  | error e => exact .inr ⟨e, rfl, issue_error s h⟩

/-- Everything a write can do: issue a command, nothing, load RXLEN or RXBUF, or write an operand register. -/
theorem memWrite_cases (t : Target) (w : Word) (s : State) :
    (t = .cmd ∧ memWrite t w s = issue w s) ∨
    ((t = .status ∨ t = .tag ∨ t = .txlen ∨ t = .bytecount ∨ t = .paylen ∨ ∃ i, t = .txbuf i) ∧
      memWrite t w s = .next s) ∨
    (t = .rxlen ∧ memWrite t w s = .next (writeRxlen w s)) ∨
    (∃ i, t = .rxbuf i ∧ memWrite t w s = .next (writeRxByte i.val w s)) ∨
    (t = .crc ∧ memWrite t w s = .next (s.setCrc (w.setWidth 16))) ∨
    (t = .slave ∧ memWrite t w s = .next (s.setSlave (w.setWidth 8))) ∨
    (t = .addr ∧ memWrite t w s = .next (s.setAddr (w.setWidth 16))) ∨
    (t = .count ∧ memWrite t w s = .next (s.setCount (w.setWidth 16))) ∨
    (t = .value ∧ memWrite t w s = .next (s.setValue w)) ∨
    (t = .regpair ∧ memWrite t w s = .next (s.setRegpair w)) := by
  cases t <;> simp [memWrite]

/-- Everything a host access can do. -/
theorem hostAccess_cases (a : Access) (s : State) :
    (s.inReset = true ∧ hostAccess a s = .next s) ∨
    (s.inReset = false ∧ s.reach a = .outside ∧ hostAccess a s = .next s) ∨
    (s.inReset = false ∧ s.reach a = .illegal ∧ hostAccess a s = .next (illegalAccess a.kind s)) ∨
    (s.inReset = false ∧ ∃ t, s.reach a = .target t ∧ hostAccess a s = legalAccess t a.kind s) := by
  cases hr : s.inReset with
  | true => exact .inl ⟨rfl, by simp [hostAccess, hr]⟩
  | false =>
    cases h : s.reach a with
    | outside => exact .inr (.inl ⟨rfl, rfl, by simp [hostAccess, hr, h]⟩)
    | illegal => exact .inr (.inr (.inl ⟨rfl, rfl, by simp [hostAccess, hr, h]⟩))
    | target t => exact .inr (.inr (.inr ⟨rfl, t, rfl, by simp [hostAccess, hr, h]⟩))

/-- A legal access is a read, which returns a word, or a write. -/
theorem legalAccess_read (t : Target) (s : State) : legalAccess t .read s = .next (s.pushRead (memRead t s)) := rfl

theorem legalAccess_write (t : Target) (w : Word) (s : State) : legalAccess t (.write w) s = memWrite t w s := rfl

/-- What an illegal access leaves: BUSERR, and the word 0 for a read. -/
theorem illegalAccess_eq (k : AccessKind) (s : State) :
    illegalAccess k s = (if k = .read then s.raiseBuserr.pushRead 0 else s.raiseBuserr) := by
  cases k <;> simp [illegalAccess]

/-- Everything a change of the reset line can do. -/
theorem driveReset_cases (b : Bool) (s : State) :
    (b = true ∧ s.driveReset b = s.setInReset true) ∨
    (b = false ∧ s.inReset = true ∧ s.driveReset b = s.release) ∨
    (b = false ∧ s.inReset = false ∧ s.driveReset b = s) := by
  cases b <;> cases h : s.inReset <;> simp [State.driveReset, h]

/-- Everything a step can do: nothing when no event is to come, else what the next event does. -/
theorem step_cases (s : State) :
    (s.pending = [] ∧ step s = .next s) ∨
    (∃ e rest, s.pending = e :: rest ∧ step s = perform e (s.setPending rest)) := by
  cases h : s.pending with
  | nil => exact .inl ⟨rfl, by simp [step, h]⟩
  | cons e rest => exact .inr ⟨e, rest, rfl, by simp [step, h]⟩

/-- A step with an event to come performs that event. -/
theorem step_of_pending {s : State} {e : Event} {rest : List Event} (h : s.pending = e :: rest) :
    step s = perform e (s.setPending rest) := by
  simp [step, h]

@[simp] theorem perform_access (a : Access) (s : State) : perform (.access a) s = hostAccess a s := rfl

@[simp] theorem perform_resetLine (b : Bool) (s : State) : perform (.resetLine b) s = .next (s.driveReset b) := rfl

/-- A legal access by the address of what it names, out of reset. -/
theorem hostAccess_target (t : Target) (k : AccessKind) (s : State) (h : s.inReset = false) :
    hostAccess { addr := s.params.blockBase + t.offset, bits := 32, kind := k } s = legalAccess t k s := by
  simp [hostAccess, h, State.reach_offset]

/-- What an offset names has that offset. -/
theorem Target.offset_of_ofOffset {off : Nat} {t : Target} (h : Target.ofOffset off = some t) : t.offset = off := by
  unfold Target.ofOffset at h
  split at h
  · cases h
  · split at h
    · simpa using List.find?_some h
    · split at h
      · simp only [Option.some.injEq] at h
        subst h
        rw [Target.offset_txbuf]
        simp
        omega
      · split at h
        · simp only [Option.some.injEq] at h
          subst h
          rw [Target.offset_rxbuf]
          simp
          omega
        · cases h

/-- An access that reaches `t` is 32 bits wide and at the address of `t`. -/
theorem State.reach_eq_target {s : State} {a : Access} {t : Target} (h : s.reach a = .target t) :
    a.bits = 32 ∧ a.addr = s.params.blockBase + t.offset := by
  simp only [State.reach, State.windowOffset] at h
  split at h
  · cases h
  · rename_i off ho
    split at ho
    · simp only [Option.some.injEq] at ho
      split at h
      · rename_i h32
        split at h
        · rename_i ht
          simp only [Reached.target.injEq] at h
          subst h
          have := Target.offset_of_ofOffset ht
          exact ⟨h32, by omega⟩
        · cases h
      · cases h
    · cases ho

/-- A legal read by offset: the word that `t` reads as is returned. -/
theorem step_read (s : State) (t : Target) (rest : List Event) (h : s.inReset = false) :
    step { s with
      pending := .access { addr := s.params.blockBase + t.offset, bits := 32, kind := .read } :: rest } =
      .next { s with pending := rest, reads := memRead t s :: s.reads } := by
  refine (hostAccess_target t .read { s with pending := rest } h).trans ?_
  cases t <;> rfl

/-- A legal write by offset. -/
theorem step_write (s : State) (t : Target) (w : Word) (rest : List Event) (h : s.inReset = false) :
    step { s with
      pending := .access { addr := s.params.blockBase + t.offset, bits := 32, kind := .write w } :: rest } =
      memWrite t w { s with pending := rest } :=
  hostAccess_target t (.write w) { s with pending := rest } h

end Sys2Proof.Machine
end

