-- ==== Sys2Proof/Laws/Memory.lean ====
section
/-! SUPPORT. The laws of the buffers: a read after a write, what a write leaves alone, and that every operation keeps the
canonical form. -/

namespace Sys2Proof.Machine

@[simp] theorem Memory.byte?_nil (i : Nat) : Memory.byte? [] i = none := rfl

@[simp] theorem Memory.byte?_write_same (m : Memory) (i : Nat) (b : Byte) : (m.write i b).byte? i = some b := by
  induction m with
  | nil => simp [Memory.write, Memory.byte?]
  | cons c m ih =>
    obtain ⟨a, c⟩ := c
    simp only [Memory.write]
    split
    · rename_i h; simp only [Memory.byte?]; rw [if_neg (by omega)]; exact ih
    · split <;> simp [Memory.byte?]

theorem Memory.byte?_write_other (m : Memory) {i j : Nat} (b : Byte) (h : j ≠ i) :
    (m.write i b).byte? j = m.byte? j := by
  induction m with
  | nil => simp [Memory.write, Memory.byte?, h.symm]
  | cons c m ih =>
    obtain ⟨a, c⟩ := c
    simp only [Memory.write]
    split
    · simp only [Memory.byte?, ih]
    · split
      · rename_i h1 h2; subst h2; simp [Memory.byte?, h.symm]
      · simp [Memory.byte?, h.symm]

/-- Reading after one write. -/
theorem Memory.byte?_write (m : Memory) (i j : Nat) (b : Byte) :
    (m.write i b).byte? j = if j = i then some b else m.byte? j := by
  split
  · subst_vars; simp
  · exact Memory.byte?_write_other m b ‹_›

/-- Reading after a byte sequence has been written from index `i`. -/
theorem Memory.byte?_writeBytes (bs : List Byte) (m : Memory) (i j : Nat) :
    (m.writeBytes i bs).byte? j = if i ≤ j ∧ j < i + bs.length then bs[j - i]? else m.byte? j := by
  induction bs generalizing m i with
  | nil => rw [if_neg (by simp only [List.length_nil]; omega)]; rfl
  | cons b bs ih =>
    simp only [Memory.writeBytes, ih, Memory.byte?_write, List.length_cons]
    by_cases h : j = i
    · subst h; simp
    · by_cases h2 : i + 1 ≤ j ∧ j < i + 1 + bs.length
      · rw [if_pos h2, if_pos (by omega), show j - i = (j - (i + 1)) + 1 by omega, List.getElem?_cons_succ]
      · rw [if_neg h2, if_neg h, if_neg (by omega)]

theorem Memory.wfFrom_mono {lo hi : Nat} {m : Memory} (h : Memory.wfFrom hi m = true) (hl : lo ≤ hi) :
    Memory.wfFrom lo m = true := by
  cases m with
  | nil => rfl
  | cons c m =>
    simp only [Memory.wfFrom, Bool.and_eq_true, decide_eq_true_eq] at h ⊢
    exact ⟨⟨by omega, h.1.2⟩, h.2⟩

theorem Memory.wfFrom_write {lo i : Nat} {m : Memory} (b : Byte) (h : Memory.wfFrom lo m = true) (hl : lo ≤ i)
    (hi : i < Config.frameMax) : Memory.wfFrom lo (m.write i b) = true := by
  induction m generalizing lo with
  | nil => simp [Memory.write, Memory.wfFrom, hl, hi]
  | cons c m ih =>
    obtain ⟨a, c⟩ := c
    simp only [Memory.wfFrom, Bool.and_eq_true, decide_eq_true_eq] at h
    simp only [Memory.write]
    split
    · simp only [Memory.wfFrom, Bool.and_eq_true, decide_eq_true_eq]
      exact ⟨h.1, ih h.2 (by omega)⟩
    · split
      · subst_vars; simp [Memory.wfFrom, hl, hi, h.2]
      · simp only [Memory.wfFrom, Bool.and_eq_true, decide_eq_true_eq]
        exact ⟨⟨hl, hi⟩, ⟨by omega, h.1.2⟩, h.2⟩

/-- A write below `FRAME_MAX` keeps the canonical form. -/
theorem Memory.wf_write {m : Memory} {i : Nat} (b : Byte) (h : m.wf = true) (hi : i < Config.frameMax) :
    (m.write i b).wf = true :=
  Memory.wfFrom_write b h (Nat.zero_le i) hi

/-- Writing a sequence that ends below `FRAME_MAX` keeps the canonical form. -/
theorem Memory.wf_writeBytes {bs : List Byte} {m : Memory} {i : Nat} (h : m.wf = true)
    (hi : i + bs.length ≤ Config.frameMax) : (m.writeBytes i bs).wf = true := by
  induction bs generalizing m i with
  | nil => exact h
  | cons b bs ih =>
    simp only [List.length_cons] at hi
    exact ih (Memory.wf_write b h (by omega)) (by omega)

/-- Nothing is listed below the bound. -/
theorem Memory.byte?_of_wfFrom {lo i : Nat} {m : Memory} (h : Memory.wfFrom lo m = true) (hi : i < lo) :
    m.byte? i = none := by
  induction m generalizing lo with
  | nil => rfl
  | cons c m ih =>
    simp only [Memory.wfFrom, Bool.and_eq_true, decide_eq_true_eq] at h
    simp only [Memory.byte?]
    rw [if_neg (by omega)]
    exact ih h.2 (by omega)

theorem Memory.eq_of_byte?_from {lo : Nat} {m n : Memory} (hm : Memory.wfFrom lo m = true)
    (hn : Memory.wfFrom lo n = true) (h : ∀ i, m.byte? i = n.byte? i) : m = n := by
  induction m generalizing n lo with
  | nil =>
    cases n with
    | nil => rfl
    | cons d n => have := h d.1; simp [Memory.byte?] at this
  | cons c m ih =>
    obtain ⟨a, b⟩ := c
    cases n with
    | nil => have := h a; simp [Memory.byte?] at this
    | cons d n =>
      obtain ⟨a', b'⟩ := d
      simp only [Memory.wfFrom, Bool.and_eq_true, decide_eq_true_eq] at hm hn
      have ha : a = a' := by
        rcases Nat.lt_trichotomy a a' with hlt | heq | hgt
        · have := h a
          simp only [Memory.byte?, if_true] at this
          rw [if_neg (by omega), Memory.byte?_of_wfFrom hn.2 (by omega)] at this
          exact absurd this (by simp)
        · exact heq
        · have := h a'
          simp only [Memory.byte?, if_true] at this
          rw [if_neg (by omega), Memory.byte?_of_wfFrom hm.2 (by omega)] at this
          exact absurd this (by simp)
      subst ha
      have hb : b = b' := by have := h a; simpa [Memory.byte?] using this
      subst hb
      congr 1
      refine ih hm.2 hn.2 (fun i => ?_)
      by_cases hi : i < a + 1
      · rw [Memory.byte?_of_wfFrom hm.2 hi, Memory.byte?_of_wfFrom hn.2 hi]
      · have := h i
        simpa [Memory.byte?, show a ≠ i by omega] using this

/-- Buffers in canonical form with equal written contents are equal data. -/
theorem Memory.eq_of_byte? {m n : Memory} (hm : m.wf = true) (hn : n.wf = true) (h : ∀ i, m.byte? i = n.byte? i) :
    m = n :=
  Memory.eq_of_byte?_from hm hn h

/-- The buffers of the state after reset are in canonical form. -/
theorem State.reset_buffers_wf : State.reset.tx.wf = true ∧ State.reset.rx.wf = true := ⟨rfl, rfl⟩

/-- `TX[j]` after TXBUF has been replaced. -/
theorem State.setTx_txAt (m : Memory) (s : State) (j : Nat) :
    (s.setTx m).txAt j = (m.byte? j).getD (Config.bufferDraw .tx s.drawEpoch j) := rfl

/-- `RX[j]` after RXBUF has been replaced. -/
theorem State.setRx_rxAt (m : Memory) (s : State) (j : Nat) :
    (s.setRx m).rxAt j = (m.byte? j).getD (Config.bufferDraw .rx s.drawEpoch j) := rfl

/-- `RX[j]` after the byte `b` has been written at `i`. -/
theorem State.rxAt_write (s : State) (i j : Nat) (b : Byte) :
    (s.setRx (s.rx.write i b)).rxAt j = if j = i then b else s.rxAt j := by
  simp only [State.setRx_rxAt, Memory.byte?_write]
  split <;> rfl

/-- `TX[j]` after a byte sequence has been written from TX[0] on. -/
theorem State.txAt_writeBytes (s : State) (bs : List Byte) (j : Nat) :
    (s.setTx (s.tx.writeBytes 0 bs)).txAt j = if h : j < bs.length then bs[j] else s.txAt j := by
  simp only [State.setTx_txAt, Memory.byte?_writeBytes]
  by_cases h : j < bs.length
  · simp [h]
  · simp [h]; rfl

end Sys2Proof.Machine
end

