-- ==== Sys2Proof/Laws/Commands.lean ====
section
/-! SUPPORT. What each operation that several commands share leaves behind, said once. -/

namespace Sys2Proof.Machine

/-- Both parsers begin by clearing PV, BYTECOUNT and PAYLEN, and nothing else. -/
theorem State.clearPayload_eq (s : State) :
    s.clearPayload = { s with pv := false, bytecount := 0, paylen := 0 } := rfl

/-- The three codec encoders write REGPAIR and TAG. -/
theorem encodeValue_eq (t : Tag) (s : State) : encodeValue t s = { s with regpair := s.value, tag := t } := rfl

/-- The three codec decoders write VALUE and TAG. -/
theorem decodePair_eq (t : Tag) (s : State) :
    decodePair t s = { s with value := join s.reghi s.reglo, tag := t } := rfl

/-- A successful DEC.PAY writes TAG, VALUE, REGPAIR and RESULT. -/
theorem storeDecoded_eq (p : Word × Tag) (s : State) :
    storeDecoded p s = { s with tag := p.2, value := p.1, regpair := p.1, result := .success } := rfl

/-- Step 7 writes BYTECOUNT, PAYLEN and PV. -/
theorem extractPayload_eq (s : State) :
    extractPayload s =
      { s with bytecount := s.rxAt 2
               paylen := BitVec.ofNat 9 (min (s.rxAt 2).toNat (s.rxlen.toNat - 3))
               pv := true } := rfl

/-- A build writes TXBUF, TXLEN and CRC. -/
theorem buildFrame_eq (f : List Byte) (len : Len) (s : State) :
    buildFrame f len s =
      { s with tx := s.tx.writeBytes 0 (f ++ crcBytes (crc16 f)), txlen := len, crc := crc16 f } := rfl

@[simp] theorem buildFrame_crc (f : List Byte) (len : Len) (s : State) : (buildFrame f len s).crc = crc16 f := rfl

@[simp] theorem buildFrame_txlen (f : List Byte) (len : Len) (s : State) : (buildFrame f len s).txlen = len := rfl

@[simp] theorem buildFrame_slave (f : List Byte) (len : Len) (s : State) : (buildFrame f len s).slave = s.slave := rfl
@[simp] theorem buildFrame_addr (f : List Byte) (len : Len) (s : State) : (buildFrame f len s).addr = s.addr := rfl
@[simp] theorem buildFrame_count (f : List Byte) (len : Len) (s : State) : (buildFrame f len s).count = s.count := rfl
@[simp] theorem buildFrame_value (f : List Byte) (len : Len) (s : State) : (buildFrame f len s).value = s.value := rfl
@[simp] theorem buildFrame_regpair (f : List Byte) (len : Len) (s : State) : (buildFrame f len s).regpair = s.regpair := rfl
@[simp] theorem buildFrame_tag (f : List Byte) (len : Len) (s : State) : (buildFrame f len s).tag = s.tag := rfl
@[simp] theorem buildFrame_rxlen (f : List Byte) (len : Len) (s : State) : (buildFrame f len s).rxlen = s.rxlen := rfl
@[simp] theorem buildFrame_bytecount (f : List Byte) (len : Len) (s : State) : (buildFrame f len s).bytecount = s.bytecount := rfl
@[simp] theorem buildFrame_paylen (f : List Byte) (len : Len) (s : State) : (buildFrame f len s).paylen = s.paylen := rfl
@[simp] theorem buildFrame_result (f : List Byte) (len : Len) (s : State) : (buildFrame f len s).result = s.result := rfl
@[simp] theorem buildFrame_pv (f : List Byte) (len : Len) (s : State) : (buildFrame f len s).pv = s.pv := rfl
@[simp] theorem buildFrame_illegal (f : List Byte) (len : Len) (s : State) : (buildFrame f len s).illegal = s.illegal := rfl
@[simp] theorem buildFrame_buserr (f : List Byte) (len : Len) (s : State) : (buildFrame f len s).buserr = s.buserr := rfl
@[simp] theorem buildFrame_rx (f : List Byte) (len : Len) (s : State) : (buildFrame f len s).rx = s.rx := rfl
@[simp] theorem buildFrame_drawEpoch (f : List Byte) (len : Len) (s : State) : (buildFrame f len s).drawEpoch = s.drawEpoch := rfl
@[simp] theorem buildFrame_inReset (f : List Byte) (len : Len) (s : State) : (buildFrame f len s).inReset = s.inReset := rfl
@[simp] theorem buildFrame_pending (f : List Byte) (len : Len) (s : State) : (buildFrame f len s).pending = s.pending := rfl
@[simp] theorem buildFrame_reads (f : List Byte) (len : Len) (s : State) : (buildFrame f len s).reads = s.reads := rfl
@[simp] theorem buildFrame_params (f : List Byte) (len : Len) (s : State) : (buildFrame f len s).params = s.params := rfl
@[simp] theorem buildFrame_rxAt (f : List Byte) (len : Len) (s : State) (i : Nat) :
    (buildFrame f len s).rxAt i = s.rxAt i := by
  rw [State.rxAt, State.bufferAt, buildFrame_rx, buildFrame_drawEpoch]; rfl

/-- What TXBUF reads as after a build: the frame with its CRC, then the old contents. -/
theorem buildFrame_txAt (f : List Byte) (len : Len) (s : State) (j : Nat) :
    (buildFrame f len s).txAt j =
      if h : j < (f ++ crcBytes (crc16 f)).length then (f ++ crcBytes (crc16 f))[j] else s.txAt j :=
  State.txAt_writeBytes s (f ++ crcBytes (crc16 f)) j

/-- The slice of TXBUF that a build wrote is the frame with its CRC. -/
theorem buildFrame_txBytes (f : List Byte) (len : Len) (s : State) :
    (buildFrame f len s).txBytes 0 (f.length + 2) = f ++ crcBytes (crc16 f) := by
  apply List.ext_getElem
  · simp [crcBytes]
  · intro j h1 h2
    rw [State.txBytes_getElem, buildFrame_txAt, dif_pos (by simpa using h2)]
    simp

/-- The count check of CRC.TX and CRC.RX. -/
theorem countLegal_iff (n len : Len) : countLegal n len = true ↔ n.toNat ≤ 256 ∧ n.toNat ≤ len.toNat := by
  simp only [countLegal, Bool.and_eq_true, decide_eq_true_eq]
  exact Iff.rfl

/-- When DEC.PAY decodes. -/
theorem decodable_iff (k : Byte) (s : State) :
    decodable k s = true ↔ s.pv = true ∧ s.paylen.toNat = 2 * s.count.toNat ∧ 4 * k.toNat + 4 ≤ s.paylen.toNat := by
  simp [decodable, and_assoc]

/-- The five common checks in order, each with its outcome, and what holds when all pass. -/
theorem validate_cases (fc : Byte) (s : State) :
    (s.rxlen.toNat = 0 ∧ validate fc s = some .timeout) ∨
    (s.rxlen.toNat ≠ 0 ∧ s.rxlen.toNat < minLen fc s ∧ validate fc s = some .short) ∨
    (s.rxlen.toNat ≠ 0 ∧ minLen fc s ≤ s.rxlen.toNat ∧
      [s.rxAt (s.rxlen.toNat - 2), s.rxAt (s.rxlen.toNat - 1)]
        ≠ crcBytes (crc16 (s.rxBytes 0 (s.rxlen.toNat - 2))) ∧ validate fc s = some .crc) ∨
    (s.rxlen.toNat ≠ 0 ∧ minLen fc s ≤ s.rxlen.toNat ∧
      [s.rxAt (s.rxlen.toNat - 2), s.rxAt (s.rxlen.toNat - 1)]
        = crcBytes (crc16 (s.rxBytes 0 (s.rxlen.toNat - 2))) ∧
      ((s.rxAt 0 ≠ s.slave ∧ validate fc s = some .slave) ∨
       (s.rxAt 0 = s.slave ∧ s.rxAt 1 ≠ fc ∧ validate fc s = some .func) ∨
       (s.rxAt 0 = s.slave ∧ s.rxAt 1 = fc ∧ validate fc s = none))) := by
  simp only [validate, crcBytes, ne_eq, List.cons.injEq, and_true]
  by_cases h0 : s.rxlen.toNat = 0
  · simp [h0]
  by_cases h1 : s.rxlen.toNat < minLen fc s
  · simp [h0, h1]
  have h1' : minLen fc s ≤ s.rxlen.toNat := by omega
  by_cases h2 : s.rxAt (s.rxlen.toNat - 2) = lo8 (crc16 (s.rxBytes 0 (s.rxlen.toNat - 2)))
  · by_cases h3 : s.rxAt (s.rxlen.toNat - 1) = hi8 (crc16 (s.rxBytes 0 (s.rxlen.toNat - 2)))
    · by_cases h4 : s.rxAt 0 = s.slave
      · by_cases h5 : s.rxAt 1 = fc <;> simp [h0, h1, h1', h2, h3, h4, h5]
      · simp [h0, h1, h1', h2, h3, h4]
    · simp [h0, h1, h1', h2, h3]
  · simp [h0, h1, h1', h2]

/-- The echo check in order, each failure with its outcome. -/
theorem checkEcho_cases (s : State) :
    (half (s.rxAt 2) (s.rxAt 3) ≠ s.addr ∧ checkEcho s = some .addr) ∨
    (half (s.rxAt 2) (s.rxAt 3) = s.addr ∧ half (s.rxAt 4) (s.rxAt 5) ≠ 0x0002#16 ∧ checkEcho s = some .count) ∨
    (half (s.rxAt 2) (s.rxAt 3) = s.addr ∧ half (s.rxAt 4) (s.rxAt 5) = 0x0002#16 ∧ checkEcho s = none) := by
  simp only [checkEcho, Config.wrCount]
  by_cases h1 : half (s.rxAt 2) (s.rxAt 3) = s.addr
  · by_cases h2 : half (s.rxAt 4) (s.rxAt 5) = 2#16 <;> simp [h1, h2]
  · simp [h1]

/-- No minimum is below 5, so that the bytes the checks read are there (R170). -/
theorem five_le_minLen (fc : Byte) (s : State) : 5 ≤ minLen fc s := by
  unfold minLen; split
  · split
    · cases s.params.rdMinLenSingle <;> decide
    · decide
  · decide

/-- Everything a command can do: raise ILLEGAL, write CRC, encode, decode a pair, give DECODE, decode a payload value,
build a request, clear the payload with an outcome, or accept a read response. -/
theorem exec_cases (i : Instr) (s : State) :
    exec i s = .next { s with illegal := true } ∨
    (∃ c, exec i s = .next { s with crc := c }) ∨
    (∃ t, exec i s = .next { s with regpair := s.value, tag := t }) ∨
    (∃ v t, exec i s = .next { s with value := v, tag := t }) ∨
    (exec i s = .next { s with result := .decode }) ∨
    (∃ k m v t, i = .decPay k m ∧ decodable k s = true ∧
      exec i s = .next { s with value := v, regpair := v, tag := t, result := .success }) ∨
    (i = .bldRd ∧ exec i s = .next (buildFrame (readRequest s) 8 s)) ∨
    (i = .bldWr ∧ exec i s = .next (buildFrame (writeRequest s) 13 s)) ∨
    (∃ r, exec i s = .next (s.clearPayload.setResult r)) ∨
    (validate 3#8 s = none ∧ exec i s = .next ((extractPayload s).setResult .success)) := by
  cases i with
  | crcInit => exact .inr (.inl ⟨_, rfl⟩)
  | crcByte b => exact .inr (.inl ⟨_, rfl⟩)
  | crcTx n => simp only [exec, execCrcTx]; split; exact .inr (.inl ⟨_, rfl⟩); exact .inl rfl
  | crcRx n => simp only [exec, execCrcRx]; split; exact .inr (.inl ⟨_, rfl⟩); exact .inl rfl
  | encF32 => exact .inr (.inr (.inl ⟨_, rfl⟩))
  | encI32 => exact .inr (.inr (.inl ⟨_, rfl⟩))
  | encU32 => exact .inr (.inr (.inl ⟨_, rfl⟩))
  | decF32 => exact .inr (.inr (.inr (.inl ⟨_, _, rfl⟩)))
  | decI32 => exact .inr (.inr (.inr (.inl ⟨_, _, rfl⟩)))
  | decU32 => exact .inr (.inr (.inr (.inl ⟨_, _, rfl⟩)))
  | decPay k m =>
    simp only [exec, execDecPay]
    split
    · exact .inl rfl
    · split
      · rename_i h; exact .inr (.inr (.inr (.inr (.inr (.inl ⟨k, m, _, _, rfl, h, rfl⟩)))))
      · exact .inr (.inr (.inr (.inr (.inl rfl))))
  | bldRd => exact .inr (.inr (.inr (.inr (.inr (.inr (.inl ⟨rfl, by simp only [exec, execBldRd]⟩))))))
  | bldWr => exact .inr (.inr (.inr (.inr (.inr (.inr (.inr (.inl ⟨rfl, by simp only [exec, execBldWr]⟩)))))))
  | prsRd =>
    simp only [exec, execPrsRd]
    split
    · exact .inr (.inr (.inr (.inr (.inr (.inr (.inr (.inr (.inl ⟨_, rfl⟩))))))))
    · rename_i h; exact .inr (.inr (.inr (.inr (.inr (.inr (.inr (.inr (.inr ⟨h, rfl⟩))))))))
  | prsWr =>
    simp only [exec, execPrsWr]
    split
    · exact .inr (.inr (.inr (.inr (.inr (.inr (.inr (.inr (.inl ⟨_, rfl⟩))))))))
    · split <;> exact .inr (.inr (.inr (.inr (.inr (.inr (.inr (.inr (.inl ⟨_, rfl⟩))))))))

end Sys2Proof.Machine
end

