-- ==== Sys2Proof/Laws/Crc.lean ====
section
/-! SUPPORT. The small laws of the CRC16 function. -/

namespace Sys2Proof.Machine

@[simp] theorem crcFrom_nil (c : Half) : crcFrom c [] = c := rfl

@[simp] theorem crcFrom_cons (c : Half) (b : Byte) (bs : List Byte) :
    crcFrom c (b :: bs) = crcFrom (crcStep c b) bs := rfl

/-- The CRC of two sequences in a row continues from the first. -/
theorem crcFrom_append (c : Half) (as bs : List Byte) : crcFrom c (as ++ bs) = crcFrom (crcFrom c as) bs := by
  induction as generalizing c with
  | nil => rfl
  | cons a as ih => exact ih _

/-- `crc16` of a sequence and more bytes continues from the CRC of the sequence. -/
theorem crc16_append (as bs : List Byte) : crc16 (as ++ bs) = crcFrom (crc16 as) bs := crcFrom_append _ as bs

@[simp] theorem crc16_nil : crc16 [] = 0xFFFF := rfl

@[simp] theorem crcShifts_zero (c : Half) : crcShifts 0 c = c := rfl

theorem crcShifts_succ (n : Nat) (c : Half) : crcShifts (n + 1) c = crcShifts n (crcShift c) := rfl

/-- A shift with bit 0 clear is a plain right shift. -/
theorem crcShift_even {c : Half} (h : c.getLsbD 0 = false) : crcShift c = c >>> 1 := by
  rw [crcShift, h]; rfl

/-- A shift with bit 0 set brings the polynomial in. -/
theorem crcShift_odd {c : Half} (h : c.getLsbD 0 = true) : crcShift c = (c >>> 1) ^^^ 0xA001 := by
  rw [crcShift, h]; rfl

/-- A shift loses nothing: the bit that falls out comes back as bit 15. -/
theorem crcShift_injective : ∀ a b : Half, crcShift a = crcShift b → a = b := by
  intro a b h
  have hb : ∀ x : Half, (crcShift x).getLsbD 15 = x.getLsbD 0 := by
    intro x
    cases hx : x.getLsbD 0
    · rw [crcShift_even hx]; simp
    · rw [crcShift_odd hx]; simp
  have h0 : a.getLsbD 0 = b.getLsbD 0 := by rw [← hb, ← hb, h]
  have hs : a >>> 1 = b >>> 1 := by
    cases hx : a.getLsbD 0
    · rw [crcShift_even hx, crcShift_even (h0 ▸ hx)] at h; exact h
    · rw [crcShift_odd hx, crcShift_odd (h0 ▸ hx)] at h; exact (BitVec.xor_left_inj _).1 h
  apply BitVec.eq_of_getLsbD_eq; intro i hi
  cases i with
  | zero => exact h0
  | succ i =>
    have := congrArg (fun v : Half => v.getLsbD i) hs
    simpa [Nat.add_comm] using this

theorem crcShifts_injective (n : Nat) : ∀ a b : Half, crcShifts n a = crcShifts n b → a = b := by
  induction n with
  | zero => intro a b h; exact h
  | succ n ih => intro a b h; exact crcShift_injective _ _ (ih _ _ h)

/-- A step with one byte is injective in the running value. -/
theorem crcStep_injective_left (a b : Half) (x : Byte) (h : crcStep a x = crcStep b x) : a = b :=
  (BitVec.xor_left_inj _).1 (crcShifts_injective 8 _ _ h)

/-- A step from one running value is injective in the byte. -/
theorem crcStep_injective_right (a : Half) (x y : Byte) (h : crcStep a x = crcStep a y) : x = y := by
  have h := congrArg BitVec.toNat ((BitVec.xor_right_inj _).1 (crcShifts_injective 8 _ _ h))
  have hx := x.isLt
  have hy := y.isLt
  simp only [BitVec.toNat_setWidth] at h
  exact BitVec.eq_of_toNat_eq (by omega)

/-- Running over one byte sequence is injective in the running value. -/
theorem crcFrom_injective (bs : List Byte) : ∀ a b : Half, crcFrom a bs = crcFrom b bs → a = b := by
  induction bs with
  | nil => intro a b h; exact h
  | cons x bs ih => intro a b h; exact crcStep_injective_left _ _ x (ih _ _ h)

end Sys2Proof.Machine
end

