-- ==== Sys2Proof/Laws/Decode.lean ====
section
/-! SUPPORT. What the decoder can do, said once: the row that the OP byte selects, and when each format is accepted. -/

namespace Sys2Proof

/-- Everything the decoder can do: the row of the OP byte, or no row. -/
theorem decode_cases (w : Word) :
    (opField w = 0x01#8 ∧ decode w = decodeZ w .crcInit) ∨
    (opField w = 0x02#8 ∧ decode w = decodeB w .crcByte) ∨
    (opField w = 0x03#8 ∧ decode w = decodeN w .crcTx) ∨
    (opField w = 0x04#8 ∧ decode w = decodeN w .crcRx) ∨
    (opField w = 0x10#8 ∧ decode w = decodeZ w .encF32) ∨
    (opField w = 0x11#8 ∧ decode w = decodeZ w .encI32) ∨
    (opField w = 0x12#8 ∧ decode w = decodeZ w .encU32) ∨
    (opField w = 0x18#8 ∧ decode w = decodeZ w .decF32) ∨
    (opField w = 0x19#8 ∧ decode w = decodeZ w .decI32) ∨
    (opField w = 0x1A#8 ∧ decode w = decodeZ w .decU32) ∨
    (opField w = 0x1C#8 ∧ decode w = decodeKM w .decPay) ∨
    (opField w = 0x20#8 ∧ decode w = decodeZ w .bldRd) ∨
    (opField w = 0x21#8 ∧ decode w = decodeZ w .bldWr) ∨
    (opField w = 0x30#8 ∧ decode w = decodeZ w .prsRd) ∨
    (opField w = 0x31#8 ∧ decode w = decodeZ w .prsWr) ∨
    ((∀ op ∈ [0x01#8, 0x02#8, 0x03#8, 0x04#8, 0x10#8, 0x11#8, 0x12#8, 0x18#8,
        0x19#8, 0x1A#8, 0x1C#8, 0x20#8, 0x21#8, 0x30#8, 0x31#8], opField w ≠ op) ∧
      decode w = .error (.unassignedOp (opField w))) := by
  by_cases h0 : opField w = 0x01#8
  · exact .inl ⟨h0, by simp [decode, h0]⟩
  by_cases h1 : opField w = 0x02#8
  · exact .inr (.inl ⟨h1, by simp [decode, h1]⟩)
  by_cases h2 : opField w = 0x03#8
  · exact .inr (.inr (.inl ⟨h2, by simp [decode, h2]⟩))
  by_cases h3 : opField w = 0x04#8
  · exact .inr (.inr (.inr (.inl ⟨h3, by simp [decode, h3]⟩)))
  by_cases h4 : opField w = 0x10#8
  · exact .inr (.inr (.inr (.inr (.inl ⟨h4, by simp [decode, h4]⟩))))
  by_cases h5 : opField w = 0x11#8
  · exact .inr (.inr (.inr (.inr (.inr (.inl ⟨h5, by simp [decode, h5]⟩)))))
  by_cases h6 : opField w = 0x12#8
  · exact .inr (.inr (.inr (.inr (.inr (.inr (.inl ⟨h6, by simp [decode, h6]⟩))))))
  by_cases h7 : opField w = 0x18#8
  · exact .inr (.inr (.inr (.inr (.inr (.inr (.inr (.inl ⟨h7, by simp [decode, h7]⟩)))))))
  by_cases h8 : opField w = 0x19#8
  · exact .inr (.inr (.inr (.inr (.inr (.inr (.inr (.inr (.inl ⟨h8, by simp [decode, h8]⟩))))))))
  by_cases h9 : opField w = 0x1A#8
  · exact .inr (.inr (.inr (.inr (.inr (.inr (.inr (.inr (.inr (.inl ⟨h9, by simp [decode, h9]⟩)))))))))
  by_cases h10 : opField w = 0x1C#8
  · exact .inr (.inr (.inr (.inr (.inr (.inr (.inr (.inr (.inr (.inr (.inl ⟨h10, by simp [decode, h10]⟩))))))))))
  by_cases h11 : opField w = 0x20#8
  · exact .inr (.inr (.inr (.inr (.inr (.inr (.inr (.inr (.inr (.inr (.inr (.inl ⟨h11, by simp [decode, h11]⟩)))))))))))
  by_cases h12 : opField w = 0x21#8
  · exact .inr (.inr (.inr (.inr (.inr (.inr (.inr (.inr (.inr (.inr (.inr (.inr (.inl ⟨h12, by simp [decode, h12]⟩))))))))))))
  by_cases h13 : opField w = 0x30#8
  · exact .inr (.inr (.inr (.inr (.inr (.inr (.inr (.inr (.inr (.inr (.inr (.inr (.inr (.inl ⟨h13, by simp [decode, h13]⟩)))))))))))))
  by_cases h14 : opField w = 0x31#8
  · exact .inr (.inr (.inr (.inr (.inr (.inr (.inr (.inr (.inr (.inr (.inr (.inr (.inr (.inr (.inl ⟨h14, by simp [decode, h14]⟩))))))))))))))
  refine .inr (.inr (.inr (.inr (.inr (.inr (.inr (.inr (.inr (.inr (.inr (.inr (.inr (.inr (.inr ⟨by simp [h0, h1, h2, h3, h4, h5, h6, h7, h8, h9, h10, h11, h12, h13, h14],
    by simp [decode, h0, h1, h2, h3, h4, h5, h6, h7, h8, h9, h10, h11, h12, h13, h14]⟩))))))))))))))

/-- When a format Z word decodes. -/
theorem decodeZ_eq_ok (w : Word) (i j : Instr) : decodeZ w i = .ok j ↔ w.extractLsb' 8 24 = 0 ∧ j = i := by
  unfold decodeZ
  by_cases h : w.extractLsb' 8 24 = 0
  · rw [if_pos h]
    exact ⟨fun x => ⟨h, by cases x; rfl⟩, fun x => by rw [x.2]⟩
  · rw [if_neg h]
    exact ⟨fun x => (by cases x), fun x => absurd x.1 h⟩

/-- When a format B word decodes. -/
theorem decodeB_eq_ok (w : Word) (i : Byte → Instr) (j : Instr) :
    decodeB w i = .ok j ↔ w.extractLsb' 16 16 = 0 ∧ j = i (bField w) := by
  unfold decodeB
  by_cases h : w.extractLsb' 16 16 = 0
  · rw [if_pos h]
    exact ⟨fun x => ⟨h, by cases x; rfl⟩, fun x => by rw [x.2]⟩
  · rw [if_neg h]
    exact ⟨fun x => (by cases x), fun x => absurd x.1 h⟩

/-- When a format N word decodes. -/
theorem decodeN_eq_ok (w : Word) (i : Len → Instr) (j : Instr) :
    decodeN w i = .ok j ↔
      (w.extractLsb' 25 7 = 0 ∧ w.extractLsb' 8 8 = 0) ∧ (nField w).toNat ≤ 256 ∧ j = i (nField w) := by
  unfold decodeN
  rw [show Config.frameMax = 256 from rfl]
  by_cases h : w.extractLsb' 25 7 = 0 ∧ w.extractLsb' 8 8 = 0
  · rw [if_pos h]
    by_cases h2 : (nField w).toNat ≤ 256
    · rw [if_pos h2]
      exact ⟨fun x => ⟨h, h2, by cases x; rfl⟩, fun x => by rw [x.2.2]⟩
    · rw [if_neg h2]
      exact ⟨fun x => (by cases x), fun x => absurd x.2.1 h2⟩
  · rw [if_neg h]
    exact ⟨fun x => (by cases x), fun x => absurd x.1 h⟩

/-- When a format KM word decodes. -/
theorem decodeKM_eq_ok (w : Word) (i : Byte → BitVec 2 → Instr) (j : Instr) :
    decodeKM w i = .ok j ↔ w.extractLsb' 18 14 = 0 ∧ mField w ≠ 3 ∧ j = i (kField w) (mField w) := by
  unfold decodeKM
  by_cases h : w.extractLsb' 18 14 = 0
  · rw [if_pos h]
    by_cases h2 : mField w = 3
    · rw [if_pos h2]
      exact ⟨fun x => (by cases x), fun x => absurd h2 x.2.1⟩
    · rw [if_neg h2]
      exact ⟨fun x => ⟨h, h2, by cases x; rfl⟩, fun x => by rw [x.2.2]⟩
  · rw [if_neg h]
    exact ⟨fun x => (by cases x), fun x => absurd x.1 h⟩

end Sys2Proof
end

