-- ==== Sys2Proof/Laws/PerInstr.lean ====
section
/-! SUPPORT. The fields of an encoded word, and the family RoundTrip: what the encoder writes for a well-formed command,
the decoder reads back, one lemma per constructor of Instr. -/

namespace Sys2Proof

theorem opField_encodeZ (op : Byte) : opField (encodeZ op) = op := by
  apply BitVec.eq_of_getLsbD_eq
  intro i hi
  simp [opField, encodeZ, hi, show i < 32 by omega]

theorem reserved_encodeZ (op : Byte) : (encodeZ op).extractLsb' 8 24 = 0 := by
  apply BitVec.eq_of_getLsbD_eq
  intro i hi
  simp [encodeZ]

theorem opField_encodeB (b op : Byte) : opField (encodeB b op) = op := by
  apply BitVec.eq_of_getLsbD_eq
  intro i hi
  simp [opField, encodeB, hi, show i < 32 by omega]

theorem bField_encodeB (b op : Byte) : bField (encodeB b op) = b := by
  apply BitVec.eq_of_getLsbD_eq
  intro i hi
  simp [bField, encodeB, hi, show 8 + i < 32 by omega]

theorem reserved_encodeB (b op : Byte) : (encodeB b op).extractLsb' 16 16 = 0 := by
  apply BitVec.eq_of_getLsbD_eq
  intro i hi
  simp [encodeB, show 8 ≤ 16 + i - 8 by omega, show 8 ≤ 16 + i by omega]

theorem opField_encodeN (n : Len) (op : Byte) : opField (encodeN n op) = op := by
  apply BitVec.eq_of_getLsbD_eq
  intro i hi
  simp [opField, encodeN, hi, show i < 16 by omega, show i < 32 by omega]

theorem nField_encodeN (n : Len) (op : Byte) : nField (encodeN n op) = n := by
  apply BitVec.eq_of_getLsbD_eq
  intro i hi
  simp [nField, encodeN, hi, show 16 + i < 32 by omega, show 8 ≤ 16 + i by omega]

theorem reserved_encodeN (n : Len) (op : Byte) :
    (encodeN n op).extractLsb' 25 7 = 0 ∧ (encodeN n op).extractLsb' 8 8 = 0 := by
  constructor
  · apply BitVec.eq_of_getLsbD_eq
    intro i hi
    simp [encodeN, show 9 ≤ 25 + i - 16 by omega, show 8 ≤ 25 + i by omega]
  · apply BitVec.eq_of_getLsbD_eq
    intro i hi
    simp [encodeN, show 8 + i < 16 by omega]

theorem opField_encodeKM (m : BitVec 2) (k op : Byte) : opField (encodeKM m k op) = op := by
  apply BitVec.eq_of_getLsbD_eq
  intro i hi
  simp [opField, encodeKM, hi, show i < 16 by omega, show i < 32 by omega]

theorem kField_encodeKM (m : BitVec 2) (k op : Byte) : kField (encodeKM m k op) = k := by
  apply BitVec.eq_of_getLsbD_eq
  intro i hi
  simp [kField, encodeKM, hi, show 8 + i < 16 by omega, show 8 + i < 32 by omega]

theorem mField_encodeKM (m : BitVec 2) (k op : Byte) : mField (encodeKM m k op) = m := by
  apply BitVec.eq_of_getLsbD_eq
  intro i hi
  simp [mField, encodeKM, hi, show 16 + i < 32 by omega, show 8 ≤ 16 + i - 8 by omega, show 8 ≤ 16 + i by omega]

theorem reserved_encodeKM (m : BitVec 2) (k op : Byte) : (encodeKM m k op).extractLsb' 18 14 = 0 := by
  apply BitVec.eq_of_getLsbD_eq
  intro i hi
  simp [encodeKM, show 2 ≤ 18 + i - 16 by omega, show 8 ≤ 18 + i - 8 by omega, show 8 ≤ 18 + i by omega]

/-- A format N word decodes to its command when N ≤ 256. -/
theorem decodeN_encodeN {n : Len} {op : Byte} (i : Len → Instr) (h : n.toNat ≤ Config.frameMax) :
    decodeN (encodeN n op) i = .ok (i n) := by
  simp only [decodeN]
  rw [if_pos (reserved_encodeN n op), nField_encodeN, if_pos h]

/-- A format KM word decodes to its command when M ≠ 3. -/
theorem decodeKM_encodeKM {m : BitVec 2} {k op : Byte} (i : Byte → BitVec 2 → Instr) (h : m ≠ 3) :
    decodeKM (encodeKM m k op) i = .ok (i k m) := by
  simp only [decodeKM]
  rw [if_pos (reserved_encodeKM m k op), mField_encodeKM, kField_encodeKM, if_neg h]

/-- RoundTrip: decoding the encoding of a well-formed command gives it back. -/
def Laws.RoundTrip.Statement (i : Instr) : Prop := i.WellFormed → decode (encode i) = .ok i

theorem Laws.RoundTrip.crcInit : Laws.RoundTrip.Statement .crcInit := by intro _; decide
theorem Laws.RoundTrip.crcByte (b : Byte) : Laws.RoundTrip.Statement (.crcByte b) := by
  intro _
  simp [decode, encode, decodeB, opField_encodeB, bField_encodeB, reserved_encodeB]
theorem Laws.RoundTrip.crcTx (n : Len) : Laws.RoundTrip.Statement (.crcTx n) := by
  intro h
  simp [decode, encode, opField_encodeN, decodeN_encodeN Instr.crcTx (of_decide_eq_true h)]
theorem Laws.RoundTrip.crcRx (n : Len) : Laws.RoundTrip.Statement (.crcRx n) := by
  intro h
  simp [decode, encode, opField_encodeN, decodeN_encodeN Instr.crcRx (of_decide_eq_true h)]
theorem Laws.RoundTrip.encF32 : Laws.RoundTrip.Statement .encF32 := by intro _; decide
theorem Laws.RoundTrip.encI32 : Laws.RoundTrip.Statement .encI32 := by intro _; decide
theorem Laws.RoundTrip.encU32 : Laws.RoundTrip.Statement .encU32 := by intro _; decide
theorem Laws.RoundTrip.decF32 : Laws.RoundTrip.Statement .decF32 := by intro _; decide
theorem Laws.RoundTrip.decI32 : Laws.RoundTrip.Statement .decI32 := by intro _; decide
theorem Laws.RoundTrip.decU32 : Laws.RoundTrip.Statement .decU32 := by intro _; decide
theorem Laws.RoundTrip.decPay (k : Byte) (m : BitVec 2) : Laws.RoundTrip.Statement (.decPay k m) := by
  intro h
  simp [decode, encode, opField_encodeKM, decodeKM_encodeKM Instr.decPay (of_decide_eq_true h)]
theorem Laws.RoundTrip.bldRd : Laws.RoundTrip.Statement .bldRd := by intro _; decide
theorem Laws.RoundTrip.bldWr : Laws.RoundTrip.Statement .bldWr := by intro _; decide
theorem Laws.RoundTrip.prsRd : Laws.RoundTrip.Statement .prsRd := by intro _; decide
theorem Laws.RoundTrip.prsWr : Laws.RoundTrip.Statement .prsWr := by intro _; decide

end Sys2Proof
end

