-- ==== Sys2Proof/Laws/Program.lean ====
section
/-! SUPPORT. Runs of host programs, one line at a time. -/

namespace Sys2Proof.Machine

/-- A run of `k + 1` steps takes one step and runs `k`. -/
theorem run_succ (k : Nat) {s t : State} (h : step s = .next t) :
    Host.Core.run Sys2Proof.core (k + 1) s = Host.Core.run Sys2Proof.core k t := by
  have : Sys2Proof.core.step s = .next t := h
  simp only [Host.Core.run, this]

/-- A line that issues a command performs it, when its word decodes to it. -/
theorem step_cmdLine (s : State) (i : Instr) (rest : List Event) (hr : s.inReset = false)
    (hd : decode (encode i) = .ok i) :
    step { s with pending := (HostLine.cmd i).event s.params :: rest } = exec i { s with pending := rest } :=
  (step_write s .cmd (encode i) rest hr).trans (issue_ok _ hd)

/-- A line that writes a register or a buffer entry. -/
theorem step_wrLine (s : State) (t : Target) (w : Word) (rest : List Event) (hr : s.inReset = false) :
    step { s with pending := (HostLine.wr t w).event s.params :: rest } = memWrite t w { s with pending := rest } :=
  step_write s t w rest hr

/-- A line that reads a register or a buffer entry. -/
theorem step_rdLine (s : State) (t : Target) (rest : List Event) (hr : s.inReset = false) :
    step { s with pending := (HostLine.rd t).event s.params :: rest } =
      .next { s with pending := rest, reads := memRead t s :: s.reads } :=
  step_read s t rest hr

end Sys2Proof.Machine
end

