-- ==== Sys2Proof/Tests/Slice0.lean ====
section
/-! SUPPORT. The model's own tests. Expected values are the spec's: the encodings of spec/30_encoding.md R72–R76 and the
vectors of spec/95_test_vectors.md, named by their ids. No test reads a buffer byte that nothing has written. The
witnesses at the end show, for each statement with hypotheses, states and operands that meet them. -/

namespace Sys2Proof.Tests

open Sys2Proof.Machine

/-! ### Helpers -/

/-- Bytes from index `i` on, as written cells. -/
def cells : Nat → List Byte → Memory
  | _, [] => []
  | i, b :: bs => (i, b) :: cells (i + 1) bs

/-- The reset state with operands written and a response loaded. -/
def loaded (slave : Byte) (addr count : Half) (bytes : List Byte) : State :=
  { State.reset with
    slave := slave
    addr := addr
    count := count
    rx := cells 0 bytes
    rxlen := BitVec.ofNat 9 bytes.length }

/-- The reset state with a request in TXBUF. -/
def built (bytes : List Byte) (crc : Half) : State :=
  { State.reset with tx := cells 0 bytes, txlen := BitVec.ofNat 9 bytes.length, crc := crc }

/-- One field of the next state. -/
def field {α : Type} (f : State → α) : Host.Outcome State Fault Refusal → Option α
  | .next s => some (f s)
  | .fault _ => none
  | .refused _ => none

/-- The outcome registers of the next state: STATUS, BYTECOUNT and PAYLEN. -/
def outcome (o : Host.Outcome State Fault Refusal) : Option (Word × Byte × Len) :=
  field (fun s => (s.status, s.bytecount, s.paylen)) o

/-- The state after a step whose event is a host access at an offset. -/
def accessed (off bits : Nat) (k : AccessKind) (s : State) : Host.Outcome State Fault Refusal :=
  step { s with pending := [.access { addr := off, bits := bits, kind := k }] }

/-- V-P1: the response to the read of one value. -/
def goodRead : List Byte := [0x01, 0x03, 0x04, 0x42, 0xF6, 0xE6, 0x66, 0xC4, 0x33]

/-- V-P16: the response to a write. -/
def goodWrite : List Byte := [0x01, 0x10, 0x07, 0xD0, 0x00, 0x02, 0x41, 0x45]

/-- V-P26: the response to the read of two values. -/
def twoValues : List Byte := [0x01, 0x03, 0x08, 0x00, 0x00, 0x00, 0x64, 0xFF, 0xFF, 0xFF, 0x9C, 0xA5, 0xA2]

/-- The state after PRS.RD of V-P1 and of V-P26. -/
def parsedOne : State :=
  { loaded 1 16 2 goodRead with pv := true, bytecount := 4, paylen := 4, result := .success }

def parsedTwo : State :=
  { loaded 1 2000 4 twoValues with pv := true, bytecount := 8, paylen := 8, result := .success }

/-! ### WellFormed: an ill-formed term for each check -/

theorem test_wf_refuses_crcTx_257 : (Instr.crcTx 257).wf = false := by decide
theorem test_wf_refuses_crcRx_257 : (Instr.crcRx 257).wf = false := by decide
theorem test_wf_refuses_decPay_mode_3 : (Instr.decPay 0 3).wf = false := by decide
theorem test_wf_accepts_the_bounds :
    (Instr.crcTx 256).wf = true ∧ (Instr.crcRx 256).wf = true ∧ (Instr.decPay 255 2).wf = true := by decide

/-! ### Decoding: a word for each command, and rejections by name -/

/-- Words written bit by bit from the formats of R72: OP in [7:0], B in [15:8], N in [24:16]. -/
theorem test_decode_crc :
    decode 0b00000000000000000000000000000001 = .ok .crcInit ∧
    decode 0b00000000000000001010010100000010 = .ok (.crcByte 0xA5) ∧
    decode 0b00000001000000000000000000000011 = .ok (.crcTx 256) ∧
    decode 0b00000000000001110000000000000100 = .ok (.crcRx 7) := by decide

theorem test_decode_codec :
    decode 0b00000000000000000000000000010000 = .ok .encF32 ∧
    decode 0b00000000000000000000000000010001 = .ok .encI32 ∧
    decode 0b00000000000000000000000000010010 = .ok .encU32 ∧
    decode 0b00000000000000000000000000011000 = .ok .decF32 ∧
    decode 0b00000000000000000000000000011001 = .ok .decI32 ∧
    decode 0b00000000000000000000000000011010 = .ok .decU32 := by decide

/-- M in [17:16], K in [15:8] (R72, R75). -/
theorem test_decode_payload :
    decode 0b00000000000000001000000100011100 = .ok (.decPay 0x81 0) ∧
    decode 0b00000000000000010000000100011100 = .ok (.decPay 1 1) ∧
    decode 0b00000000000000100000001000011100 = .ok (.decPay 2 2) := by decide

theorem test_decode_frames :
    decode 0b00000000000000000000000000100000 = .ok .bldRd ∧
    decode 0b00000000000000000000000000100001 = .ok .bldWr ∧
    decode 0b00000000000000000000000000110000 = .ok .prsRd ∧
    decode 0b00000000000000000000000000110001 = .ok .prsWr := by decide

/-- V-X1 to V-X5, V-X7, V-X9 to V-X11, by the decoder's own names. -/
theorem test_decode_rejects_by_name :
    decode 0x00000000 = .error (.unassignedOp 0x00) ∧ decode 0x00000005 = .error (.unassignedOp 0x05) ∧
    decode 0x0000001B = .error (.unassignedOp 0x1B) ∧ decode 0x00000101 = .error (.reservedBitSet 0x01) ∧
    decode 0x00010102 = .error (.reservedBitSet 0x02) ∧ decode 0x01010004 = .error (.countAbove256 257) ∧
    decode 0x0003001C = .error .modeThree ∧ decode 0x80000020 = .error (.reservedBitSet 0x20) ∧
    decode 0x00000130 = .error (.reservedBitSet 0x30) ∧ decode 0x00060103 = .error (.reservedBitSet 0x03) ∧
    decode 0x0004001C = .error (.reservedBitSet 0x1C) := by decide

theorem test_decodeTableWord : decodeTableWord 32 0x0001011C = some (.decPay 1 1) := by decide

/-! ### CRC engine -/

/-- V-C8. -/
theorem test_crcInit : field (·.crc) (exec .crcInit { State.reset with crc := 0x1234 }) = some 0xFFFF := by decide

/-- V-C3, V-R3. -/
theorem test_crcByte_from_reset : field (·.crc) (exec (.crcByte 0x01) State.reset) = some 0x807E := by decide

/-- V-C13. -/
theorem test_crcByte_continues_from_host_value :
    field (·.crc) (exec (.crcByte 0x03) { State.reset with crc := 0x807E }) = some 0x2140 := by decide

/-- V-C9 on the frame of V-B1. -/
theorem test_crcTx_of_a_built_frame :
    field (·.crc) (exec (.crcTx 6) (built [0x01, 0x03, 0x07, 0xD0, 0x00, 0x02, 0xC4, 0x86] 0)) = some 0x86C4 := by
  decide +kernel

/-- V-X6. -/
theorem test_crcTx_past_txlen_is_illegal :
    field (fun s => (s.crc, s.illegal))
      (exec (.crcTx 9) (built [0x01, 0x03, 0x07, 0xD0, 0x00, 0x02, 0xC4, 0x86] 0x86C4)) = some (0x86C4, true) := by
  decide

/-- V-C11: PV is unchanged. -/
theorem test_crcRx : field (fun s => (s.crc, s.pv)) (exec (.crcRx 7) parsedOne) = some (0x33C4, true) := by decide +kernel

/-- R108: with RXLEN = 9, N = 10 is illegal. -/
theorem test_crcRx_past_rxlen_is_illegal :
    field (fun s => (s.crc, s.illegal)) (exec (.crcRx 10) parsedOne) = some (0xFFFF, true) := by decide

/-- V-C6: the check value of "123456789". -/
theorem test_crc16_check_value : crc16 [0x31, 0x32, 0x33, 0x34, 0x35, 0x36, 0x37, 0x38, 0x39] = 0x4B37 := by decide +kernel

/-! ### Register codec -/

/-- V-K6: a NaN keeps its payload. -/
theorem test_encF32_keeps_nan :
    field (fun s => (s.regpair, s.value, s.tag)) (exec .encF32 { State.reset with value := 0x7FC00001, tag := .u32 }) =
      some (0x7FC00001, 0x7FC00001, .f32) := by decide

/-- V-K8. -/
theorem test_encI32_of_the_least_integer :
    field (fun s => (s.reghi, s.reglo, s.tag)) (exec .encI32 { State.reset with value := 0x80000000 }) =
      some (0x8000, 0x0000, .i32) := by decide

/-- V-K9. -/
theorem test_encU32_of_65536 :
    field (fun s => (s.reghi, s.reglo, s.tag)) (exec .encU32 { State.reset with value := 0x00010000 }) =
      some (0x0001, 0x0000, .u32) := by decide

/-- V-K14. -/
theorem test_decF32 :
    field (fun s => (s.value, s.tag)) (exec .decF32 { State.reset with regpair := 0x12345678, tag := .i32 }) =
      some (0x12345678, .f32) := by decide

/-- V-K12. -/
theorem test_decI32_reads_minus_100 :
    field (fun s => (s.value, s.tag, sem s.value s.tag)) (exec .decI32 { State.reset with regpair := 0xFFFFFF9C }) =
      some (0xFFFFFF9C, .i32, .integer (-100)) := by decide

/-- V-K13. -/
theorem test_decU32_reads_4294967196 :
    field (fun s => (s.value, s.tag, sem s.value s.tag)) (exec .decU32 { State.reset with regpair := 0xFFFFFF9C }) =
      some (0xFFFFFF9C, .u32, .integer 4294967196) := by decide

/-- V-D5: the second value, signed; STATUS 0x00000010. -/
theorem test_decPay_second_value :
    field (fun s => (s.value, s.regpair, s.tag, s.status)) (exec (.decPay 1 1) parsedTwo) =
      some (0xFFFFFF9C, 0xFFFFFF9C, .i32, 0x00000010) := by decide

/-- V-D7: PAYLEN = 8 with COUNT = 2 gives DECODE, VALUE unchanged, STATUS 0x00000018. -/
theorem test_decPay_of_a_wrong_length :
    field (fun s => (s.value, s.tag, s.status)) (exec (.decPay 0 0) { parsedTwo with count := 2 }) =
      some (0, .f32, 0x00000018) := by decide

/-! ### Frame builder -/

/-- V-B1. -/
theorem test_bldRd :
    field (fun s => (s.txBytes 0 8, s.txlen, s.crc)) (exec .bldRd (loaded 1 2000 2 [])) =
      some ([0x01, 0x03, 0x07, 0xD0, 0x00, 0x02, 0xC4, 0x86], 8, 0x86C4) := by decide +kernel

/-- V-B6: operands that break the host's duties are built as given. -/
theorem test_bldRd_builds_as_given :
    field (fun s => (s.txBytes 0 8, s.status)) (exec .bldRd (loaded 0 0 0 [])) =
      some ([0x00, 0x03, 0x00, 0x00, 0x00, 0x00, 0x44, 0x1B], 0x0000000F) := by decide +kernel

/-- V-B8. -/
theorem test_bldWr :
    field (fun s => (s.txBytes 0 13, s.txlen, s.crc)) (exec .bldWr { loaded 1 0x0010 2 [] with regpair := 0x42F6E666 }) =
      some ([0x01, 0x10, 0x00, 0x10, 0x00, 0x02, 0x04, 0x42, 0xF6, 0xE6, 0x66, 0xCC, 0xA3], 13, 0xA3CC) := by decide +kernel

/-- V-B13: COUNT is not read. -/
theorem test_bldWr_ignores_count :
    field (fun s => (s.txBytes 0 13, s.crc)) (exec .bldWr { loaded 1 2000 7 [] with regpair := 0x00000064 }) =
      some ([0x01, 0x10, 0x07, 0xD0, 0x00, 0x02, 0x04, 0x00, 0x00, 0x00, 0x64, 0xD9, 0x28], 0x28D9) := by decide +kernel

/-! ### Frame validator and parser -/

/-- V-P1. -/
theorem test_prsRd : outcome (exec .prsRd (loaded 1 16 2 goodRead)) = some (0x00000010, 4, 4) := by decide +kernel

/-- V-P27: the payload takes in the CRC bytes. -/
theorem test_prsRd_clamps_the_payload :
    outcome (exec .prsRd (loaded 1 16 2 [0x01, 0x03, 0x06, 0x42, 0xF6, 0xE6, 0x66, 0xBD, 0xF3])) =
      some (0x00000010, 6, 6) := by decide +kernel

/-- V-P16 from a state with a payload: PV, BYTECOUNT and PAYLEN are cleared. -/
theorem test_prsWr :
    outcome (exec .prsWr { loaded 1 2000 2 goodWrite with pv := true, bytecount := 4, paylen := 4 }) =
      some (0x00000000, 0, 0) := by decide +kernel

/-- V-P24: a wrong address comes before a wrong count. -/
theorem test_prsWr_address_before_count :
    outcome (exec .prsWr (loaded 1 2000 2 [0x01, 0x10, 0x07, 0xD1, 0x00, 0x01, 0x50, 0x84])) =
      some (0x00000006, 0, 0) := by decide +kernel

/-! ### Register window and reset -/

/-- V-X1: an illegal command word. -/
theorem test_illegal_word_sets_ILLEGAL :
    field (·.status) (accessed 0x000 32 (.write 0x00000000) State.reset) = some 0x0000010F := by decide

/-- V-X13, V-X15: a reserved and a misaligned read return 0 and set BUSERR. -/
theorem test_illegal_reads_set_BUSERR :
    field (fun s => (s.status, s.reads)) (accessed 0x034 32 .read State.reset) = some (0x0000020F, [0]) ∧
    field (fun s => (s.status, s.reads)) (accessed 0x009 32 .read State.reset) = some (0x0000020F, [0]) := by decide

/-- V-X16: an 8-bit write. -/
theorem test_narrow_write_sets_BUSERR :
    field (fun s => (s.status, s.crc)) (accessed 0x008 8 (.write 0x00) State.reset) = some (0x0000020F, 0xFFFF) := by
  decide

/-- V-X17: a write to STATUS is ignored. -/
theorem test_status_write_is_ignored :
    field (·.status) (accessed 0x004 32 (.write 0x0000FFFF) State.reset) = some 0x0000000F := by decide

/-- V-X19: RXLEN is clamped. -/
theorem test_rxlen_is_clamped :
    field (·.rxlen) (accessed 0x028 32 (.write 0x00001000) State.reset) = some 256 := by decide

/-- V-X20: SLAVE keeps eight bits. -/
theorem test_slave_keeps_eight_bits :
    field (·.slave) (accessed 0x00C 32 (.write 0x000001FF) State.reset) = some 0xFF := by decide

/-- V-D11: a write to RXLEN, even of the same value, clears PV. -/
theorem test_rxlen_write_clears_pv :
    field (fun s => (s.pv, s.rxlen)) (accessed 0x028 32 (.write 9) parsedOne) = some (false, 9) := by decide

/-- A write to RXBUF[2] stores one byte and clears PV (R51). -/
theorem test_rxbuf_write :
    field (fun s => (s.rxAt 2, s.rxAt 3, s.pv)) (accessed 0x808 32 (.write 0x00000155) parsedOne) =
      some (0x55, 0x42, false) := by decide

/-- A read of RXBUF[8] returns the byte, zero-extended (R51). -/
theorem test_rxbuf_read : field (·.reads) (accessed 0x820 32 .read parsedOne) = some [0x00000033] := by decide

/-- withFetchWord runs its word as the next step: CRC.BYTE 0x01 right after reset (V-R3). -/
theorem test_withFetchWord_runs :
    field (·.crc) (step (State.reset.withFetchWord 32 0x00000102)) = some 0x807E := by decide

/-- R240: a command written while reset is asserted is not performed; release restores the table. -/
theorem test_reset_line :
    field (·.crc) (step (({ State.reset with inReset := true, crc := 1 } : State).setPending
      [writeEvent State.reset.params 0x000 0x00000001])) = some 1 ∧
    field (fun s => (s.crc, s.illegal, s.inReset)) (step { State.reset with
      inReset := true
      crc := 1
      illegal := true
      pending := [.resetLine false] }) = some (0xFFFF, false, false) := by decide

/-! ### Witnesses: states and operands that meet the hypotheses of the statements -/

/-- A step with one access pending answers a next state. -/
theorem next_of_field {α : Type} {f : State → α} {o : Host.Outcome State Fault Refusal} {a : α}
    (h : field f o = some a) : ∃ t, o = .next t := by
  cases o with
  | next s => exact ⟨s, rfl⟩
  | fault r => cases h
  | refused r => cases h

/-- A legal and an illegal word for each OP that a statement's premise names. -/
theorem witness_op_of_word :
    ∀ p ∈ [(0x00000001#32, 0x01#8), (0x00000101, 0x01), (0x0000FF02, 0x02), (0x00010102, 0x02), (0x01000003, 0x03),
      (0x01010003, 0x03), (0x01000004, 0x04), (0x01000104, 0x04), (0x00000010, 0x10), (0x00000110, 0x10),
      (0x00000011, 0x11), (0x80000011, 0x11), (0x00000012, 0x12), (0x00000112, 0x12), (0x00000018, 0x18),
      (0x00000118, 0x18), (0x00000019, 0x19), (0x00000119, 0x19), (0x0000001A, 0x1A), (0x0000011A, 0x1A),
      (0x0002FF1C, 0x1C), (0x0003001C, 0x1C), (0x0004001C, 0x1C), (0x00000020, 0x20), (0x80000020, 0x20),
      (0x00000021, 0x21), (0x00000121, 0x21), (0x00000030, 0x30), (0x00000130, 0x30), (0x00000031, 0x31),
      (0x00010031, 0x31)], p.1.extractLsb' 0 8 = p.2 := by
  simp only [List.forall_mem_cons, List.not_mem_nil, false_imp_iff, implies_true, and_true]
  decide

theorem witness_reset_is_released : State.reset.inReset = false := rfl

theorem witness_CrcByteFeedsOneByte : State.reset.inReset = false ∧ (0x0000FF02#32).extractLsb' 0 8 = 0x02 := by decide

theorem witness_CrcTxCoversThePrefix : ∃ t, exec .bldRd State.reset = .next t :=
  next_of_field (f := (·.drawEpoch)) (a := 0) (by decide +kernel)

theorem witness_EncodersCopyValueToRegpair : ∃ t, exec .encI32 State.reset = .next t := ⟨_, rfl⟩

/-- DEC.PAY gives DECODE: PV = 0, a length that is not 2·COUNT, and an index one past the last value. -/
theorem witness_DecPayDecodesOneValue_failures :
    (0 : BitVec 2) ≠ 3 ∧ State.reset.pv = false ∧
    ({ parsedTwo with count := 2 } : State).paylen.toNat ≠ 2 * ({ parsedTwo with count := 2 } : State).count.toNat ∧
    parsedTwo.paylen.toNat = 2 * parsedTwo.count.toNat ∧ 4 * (2 : Byte).toNat + 4 > parsedTwo.paylen.toNat := by decide

/-- DEC.PAY decodes, at the last value that is there. -/
theorem witness_DecPayDecodesOneValue_success :
    (1 : BitVec 2) ≠ 3 ∧ parsedTwo.pv = true ∧ parsedTwo.paylen.toNat = 2 * parsedTwo.count.toNat ∧
    4 * (1 : Byte).toNat + 4 ≤ parsedTwo.paylen.toNat ∧
    (0xFFFFFF9C : Word).toNat = (parsedTwo.rxAt (3 + 4 * (1 : Byte).toNat)).toNat * 2 ^ 24 +
      (parsedTwo.rxAt (4 + 4 * (1 : Byte).toNat)).toNat * 2 ^ 16 +
      (parsedTwo.rxAt (5 + 4 * (1 : Byte).toNat)).toNat * 2 ^ 8 + (parsedTwo.rxAt (6 + 4 * (1 : Byte).toNat)).toNat := by
  decide

/-- V-P1 done meets the invariant with PV set, and its one value is there. -/
theorem witness_Inv_with_payload : parsedOne.Inv ∧ parsedOne.pv = true ∧ 4 * (0 : Byte).toNat + 4 ≤ parsedOne.paylen.toNat := by
  refine ⟨⟨⟨?_, ?_, ?_, ?_⟩, .inl rfl, fun _ => ⟨?_, ⟨[0x01, 0x03, 0x04, 0x42, 0xF6, 0xE6, 0x66], ?_⟩, ?_, ?_, ?_, .inl rfl⟩,
    ?_⟩, ?_, ?_⟩ <;> decide +kernel

theorem witness_DecodeOutcomeIsLocal :
    (0 : BitVec 2) ≠ 3 ∧ ∃ t, exec (.decPay 0 0) State.reset = .next t ∧ t.result = .decode :=
  ⟨by decide, _, rfl, rfl⟩

theorem witness_BuildersNeverRejectOperands : (Instr.bldWr = .bldRd ∨ Instr.bldWr = .bldWr) := .inr rfl

/-- A response that PRS.RD accepts (V-P1), one that gives SLAVE (V-S6), and one that PRS.WR accepts (V-P16); the first
and the last byte and bit. -/
theorem witness_SingleBitFlipGivesCrc :
    0 < (loaded 1 16 2 goodRead).rxlen.toNat ∧ 8 < (loaded 1 16 2 goodRead).rxlen.toNat ∧ 7 < 8 ∧
    field (·.result) (exec .prsRd (loaded 1 16 2 goodRead)) = some .success ∧
    field (·.result) (exec .prsRd (loaded 1 16 2 [0x02, 0x03, 0x04, 0x42, 0xF6, 0xE6, 0x66, 0xF7, 0x33])) =
      some .slave ∧
    field (·.result) (exec .prsRd (loaded 1 16 4 [0x01, 0x83, 0x02, 0xC0, 0xF1])) = some .func ∧
    field (·.result) (exec .prsWr (loaded 1 2000 2 goodWrite)) = some .success ∧
    field (·.result) (exec .prsWr (loaded 1 2000 2 [0x01, 0x10, 0x07, 0xD1, 0x00, 0x02, 0x10, 0x85])) =
      some .addr ∧
    field (·.result) (exec .prsWr (loaded 1 2000 2 [0x01, 0x10, 0x07, 0xD0, 0x00, 0x01, 0x01, 0x44])) =
      some .count := by decide +kernel

/-- V-P13, with COUNT = 2 and with COUNT = 4. -/
theorem witness_ExceptionResponsesUseOrdinaryChecks :
    (∀ n ∈ [(2 : Half), 4], (loaded 1 16 n [0x01, 0x83, 0x02, 0xC0, 0xF1]).rxlen = 5 ∧
      (loaded 1 16 n [0x01, 0x83, 0x02, 0xC0, 0xF1]).rxAt 0 = 1 ∧
      ((loaded 1 16 n [0x01, 0x83, 0x02, 0xC0, 0xF1]).rxAt 1).getLsbD 7 = true ∧
      (loaded 1 16 n [0x01, 0x83, 0x02, 0xC0, 0xF1]).rxBytes 0 5 =
        [0x01, 0x83, 0x02] ++ crcBytes (crc16 [0x01, 0x83, 0x02])) ∧
    (loaded 1 16 2 []).params.rdMinLenSingle = .nine := by
  simp only [List.forall_mem_cons, List.not_mem_nil, false_imp_iff, implies_true, and_true]
  decide +kernel

/-- A byte past the response differs; a response one byte short (V-S5); a valid CRC with the wrong slave, at the minimum
length 5 (V-P31) and for a write (V-P19). -/
theorem witness_ParsersReadOnlyTheResponse :
    (∀ j, j < 9 → ({ loaded 1 16 2 goodRead with rx := cells 0 (goodRead ++ [0xEE]) } : State).rxAt j =
      (loaded 1 16 2 goodRead).rxAt j) ∧
    (1 ≤ (loaded 1 16 2 (goodRead.take 8)).rxlen.toNat ∧ (loaded 1 16 2 (goodRead.take 8)).rxlen.toNat < 9) ∧
    (1 ≤ (loaded 1 2000 2 (goodWrite.take 5)).rxlen.toNat ∧ (loaded 1 2000 2 (goodWrite.take 5)).rxlen.toNat < 6) ∧
    (loaded 1 0 4 [0x02, 0x03, 0x00, 0xD0, 0xF0]).rxBytes 0 5 =
      [0x02, 0x03, 0x00] ++ crcBytes (crc16 [0x02, 0x03, 0x00]) ∧
    (loaded 1 0 4 [0x02, 0x03, 0x00, 0xD0, 0xF0]).rxAt 0 ≠ 1 ∧
    (loaded 1 2000 2 [0x02, 0x10, 0x07, 0xD0, 0x00, 0x02, 0x41, 0x76]).rxBytes 0 8 =
      [0x02, 0x10, 0x07, 0xD0, 0x00, 0x02] ++ crcBytes (crc16 [0x02, 0x10, 0x07, 0xD0, 0x00, 0x02]) ∧
    (loaded 1 2000 2 [0x02, 0x10, 0x07, 0xD0, 0x00, 0x02, 0x41, 0x76]).rxAt 0 ≠ 1 := by decide +kernel

/-- V-P28 and V-P21: a response and one more byte. -/
theorem witness_OneTrailingZeroIsAccepted :
    (loaded 1 16 2 (goodRead ++ [0x00])).rxlen.toNat = 9 + 1 ∧
    (loaded 1 16 2 (goodRead ++ [0x00])).rxBytes 0 9 =
      goodRead.take 7 ++ crcBytes (crc16 (goodRead.take 7)) ∧
    (loaded 1 2000 2 (goodWrite ++ [0x01])).rxlen.toNat = 8 + 1 ∧
    (loaded 1 2000 2 (goodWrite ++ [0x01])).rxBytes 0 8 =
      goodWrite.take 6 ++ crcBytes (crc16 (goodWrite.take 6)) := by decide +kernel

/-- V-P26 (two values), and V-D12 (none). -/
theorem witness_ReadResponseDeliversEveryValue :
    (let s := loaded 1 2000 4 twoValues
     let body := [s.slave, 0x03, BitVec.ofNat 8 (4 * 2)] ++ [(0x00000064 : Word), 0xFFFFFF9C].flatMap
       (fun v => [v.extractLsb' 24 8, v.extractLsb' 16 8, v.extractLsb' 8 8, v.extractLsb' 0 8])
     4 * 2 ≤ 251 ∧ s.count.toNat = 2 * 2 ∧ s.rxlen.toNat = 4 * 2 + 5 ∧ s.rxBytes 0 13 = body ++ crcBytes (crc16 body) ∧
       (1 : Byte).toNat < 2 ∧ (2 : BitVec 2) ≠ 3) ∧
    (let s := loaded 1 16 0 [0x01, 0x03, 0x00, 0x20, 0xF0]
     let body := [s.slave, 0x03, BitVec.ofNat 8 (4 * 0)]
     s.count.toNat = 2 * 0 ∧ s.rxlen.toNat = 4 * 0 + 5 ∧ s.rxBytes 0 5 = body ++ crcBytes (crc16 body)) := by
  decide +kernel

/-- One value, and the 62 values of the longest response that fits. -/
theorem witness_ReadTransactionDeliversTheValue :
    State.reset.inReset = false ∧ State.reset.NoFault ∧ (0 : Byte).toNat < [(0x42F6E666 : Word)].length ∧
    4 * [(0x42F6E666 : Word)].length ≤ 251 ∧ (0 : BitVec 2) ≠ 3 ∧
    (61 : Byte).toNat < (List.replicate 62 (0x00000064 : Word)).length ∧
    4 * (List.replicate 62 (0x00000064 : Word)).length ≤ 251 :=
  ⟨rfl, ⟨rfl, rfl⟩, by decide, by decide, by decide, by decide, by decide⟩

/-- V-P16, and V-P18 with the count 1. -/
theorem witness_WriteEchoIsAccepted :
    ∀ p ∈ [(goodWrite, (2 : Half)), ([0x01, 0x10, 0x07, 0xD0, 0x00, 0x01, 0x01, 0x44], 1)],
      let s := loaded 1 2000 2 p.1
      let body := [s.slave, 0x10, s.addr.extractLsb' 8 8, s.addr.extractLsb' 0 8, p.2.extractLsb' 8 8,
        p.2.extractLsb' 0 8]
      s.rxlen = 8 ∧ s.rxBytes 0 8 = body ++ crcBytes (crc16 body) := by decide +kernel

/-- 0x00000000 selects no row of R76. -/
theorem witness_DecoderFollowsMaskAndMatch :
    ∀ r ∈ [((0xFFFFFFFF : Word), (0x01 : Word)), (0xFFFF00FF, 0x02), (0xFE00FFFF, 0x03), (0xFE00FFFF, 0x04),
      (0xFFFFFFFF, 0x10), (0xFFFFFFFF, 0x11), (0xFFFFFFFF, 0x12), (0xFFFFFFFF, 0x18), (0xFFFFFFFF, 0x19),
      (0xFFFFFFFF, 0x1A), (0xFFFC00FF, 0x1C), (0xFFFFFFFF, 0x20), (0xFFFFFFFF, 0x21), (0xFFFFFFFF, 0x30),
      (0xFFFFFFFF, 0x31)], (0x00000000 : Word) &&& r.1 ≠ r.2 := by
  simp only [List.forall_mem_cons, List.not_mem_nil, false_imp_iff, implies_true, and_true]
  decide

/-- The N rows, at a count within 256, at 256 and past it. -/
theorem witness_DecoderFollowsMaskAndMatch_counts :
    (0x00060003 : Word) &&& 0xFE00FFFF = 0x03 ∧ (0x01000004 : Word) &&& 0xFE00FFFF = 0x04 ∧
      (0x01010003 : Word) &&& 0xFE00FFFF = 0x03 ∧ (0x01010004 : Word) &&& 0xFE00FFFF = 0x04 := by decide

theorem witness_DecodeAndEncodeAgree :
    (Instr.crcTx 256).WellFormed ∧ (Instr.decPay 255 2).WellFormed ∧ decode 0x0002FF1C = .ok (.decPay 255 2) := by decide

/-- One word for each ground of R77, at the first value that fails. -/
theorem witness_IllegalEncodingsOnlyRaiseIllegal :
    (0x00000000#32).extractLsb' 0 8 ∉ [(0x01 : Byte), 0x02, 0x03, 0x04, 0x10, 0x11, 0x12, 0x18, 0x19, 0x1A, 0x1C, 0x20,
      0x21, 0x30, 0x31] ∧
    (0x00000101#32).extractLsb' 8 24 ≠ 0 ∧ (0x00010102#32).extractLsb' 16 16 ≠ 0 ∧
    (0x00000103#32).extractLsb' 8 8 ≠ 0 ∧ (0x02000003#32).extractLsb' 25 7 ≠ 0 ∧
    ((0x01010004#32).extractLsb' 16 9).toNat > 256 ∧
    ((0x00010003#32).extractLsb' 16 9).toNat > State.reset.txlen.toNat ∧
    ((0x00010004#32).extractLsb' 16 9).toNat > State.reset.rxlen.toNat ∧
    (0x0004001C#32).extractLsb' 18 14 ≠ 0 ∧ (0x0003001C#32).extractLsb' 16 2 = 3 := by decide

/-- The first and last offsets of the three legal ranges, and a write for each clause, at the ends of its range, that
answers a next state. -/
theorem witness_ReadsHaveNoSideEffects :
    (∀ off ∈ [0x000, 0x030, 0x400, 0x7FC, 0x800, 0xBFC], off % 4 = 0 ∧ (off < 0x034 ∨ 0x400 ≤ off) ∧ off < 0xC00) ∧
    ∀ off ∈ [0x000, 0x004, 0x008, 0x00C, 0x010, 0x014, 0x018, 0x01C, 0x020, 0x028, 0x030, 0x400, 0x7FC, 0x800, 0xBFC], ∃ t,
      step { State.reset with pending := [writeEvent State.reset.params off 0x00000001] } = .next t := by
  refine ⟨by decide, ?_⟩
  simp only [List.forall_mem_cons, List.not_mem_nil, false_imp_iff, implies_true, and_true]
  refine ⟨?_, ?_, ?_, ?_, ?_, ?_, ?_, ?_, ?_, ?_, ?_, ?_, ?_, ?_, ?_⟩ <;> exact next_of_field (f := (·.drawEpoch)) (a := 0) (by decide +kernel)

/-- Each ground for BUSERR at the ends of its range, and the legal offsets beside them with an access that completes. -/
theorem witness_IllegalAccessOnlyRaisesBuserr :
    (8 ≠ 32 ∧ 0x009 % 4 ≠ 0 ∧ 0xFFF < 4096) ∧
    (∀ off ∈ [0x034, 0x3FC], off < 4096 ∧ 0x034 ≤ off ∧ off ≤ 0x3FC) ∧
    (∀ off ∈ [0xC00, 0xFFC], off < 4096 ∧ 0xC00 ≤ off ∧ off ≤ 0xFFC) ∧
    (∀ off ∈ [0x030, 0x400, 0xBFC],
      ¬ ((32 : Nat) ≠ 32 ∨ off % 4 ≠ 0 ∨ (0x034 ≤ off ∧ off ≤ 0x3FC) ∨ (0xC00 ≤ off ∧ off ≤ 0xFFC))) ∧
    ∃ t, step { State.reset with pending := [readEvent State.reset.params 0x030] } = .next t :=
  ⟨by decide, by decide, by decide, by decide,
    next_of_field (f := (·.drawEpoch)) (a := 0) (by decide +kernel)⟩

/-- RXLEN, and the first and last entries of RXBUF. -/
theorem witness_LoadingAResponseEndsThePayload :
    ∀ off ∈ [0x028, 0x800, 0xBFC], (off = 0x028 ∨ (0x800 ≤ off ∧ off < 0xC00 ∧ off % 4 = 0)) ∧ ∃ t,
      step { parsedOne with pending := [writeEvent parsedOne.params off 0x00000001] } = .next t := by
  simp only [List.forall_mem_cons, List.not_mem_nil, false_imp_iff, implies_true, and_true]
  refine ⟨?_, ?_, ?_⟩ <;>
    exact ⟨by decide, next_of_field (f := (·.drawEpoch)) (a := 0) (by decide +kernel)⟩

theorem witness_LoadrxPresentsTheResponse :
    ([] : List Byte).length ≤ 256 ∧ (List.replicate 256 (0x00 : Byte)).length ≤ 256 :=
  ⟨Nat.zero_le _, by rw [List.length_replicate]⟩

/-- Each command answers a next state on the state after V-P1. -/
theorem witness_commands_answer_next :
    (∃ t, exec .crcInit parsedOne = .next t) ∧ (∃ t, exec (.crcByte 0) parsedOne = .next t) ∧
    (∃ t, exec (.crcTx 0) parsedOne = .next t) ∧ (∃ t, exec (.crcRx 9) parsedOne = .next t) ∧
    (∃ t, exec .encF32 parsedOne = .next t) ∧ (∃ t, exec .decU32 parsedOne = .next t) ∧
    (∃ t, exec (.decPay 0 1) parsedOne = .next t) ∧ (∃ t, exec .bldRd parsedOne = .next t) ∧
    (∃ t, exec .bldWr parsedOne = .next t) ∧ (∃ t, exec .prsRd parsedOne = .next t) ∧
    (∃ t, exec .prsWr parsedOne = .next t) :=
  by refine ⟨?_, ?_, ?_, ?_, ?_, ?_, ?_, ?_, ?_, ?_, ?_⟩ <;> exact next_of_field (f := (·.drawEpoch)) (a := 0) (by decide +kernel)

/-- Events that raise each fault from the reset state, and a reset release that clears both. -/
theorem witness_FaultsArePreciseAndSticky :
    field (·.illegal) (step { State.reset with pending := [writeEvent State.reset.params 0x000 0] }) = some true ∧
    field (·.buserr) (step { State.reset with pending := [readEvent State.reset.params 0x034] }) = some true ∧
    field (fun s => (s.illegal, s.buserr)) (step { State.reset with
      illegal := true
      buserr := true
      inReset := true
      pending := [.resetLine false] }) = some (false, false) := by decide

theorem witness_StepRunsTheDecodedCommand :
    State.reset.inReset = false ∧ decode 0x01000003 = .ok (.crcTx 256) ∧ (Instr.crcTx 256).WellFormed ∧
    decode 0x00000000 = .error (.unassignedOp 0) := by decide

theorem witness_ReleaseOfResetRestoresTheTable : ({ State.reset with inReset := true } : State).inReset = true := rfl

/-- An idle step: nothing is written, and the entries stay unwritten. -/
theorem witness_UnwrittenBytesKeepTheirDraw :
    step State.reset = .next State.reset ∧ State.reset.tx.byte? 0 = none ∧ State.reset.rx.byte? 255 = none :=
  ⟨rfl, rfl, rfl⟩

/-- A host write that changes RX[255], and a BLD.RD that changes TXLEN. -/
theorem witness_OnlyBuildersWriteTxAndOnlyTheHostWritesRx :
    field (fun s => (s.rxAt 255, s.drawEpoch)) (step { State.reset with
      rx := [(255, 0x00)]
      pending := [writeEvent State.reset.params 0xBFC 0x00000001] }) = some (0x01, 0) ∧
    field (fun s => (s.txlen, s.drawEpoch)) (step { State.reset with
      pending := [writeEvent State.reset.params 0x000 0x00000020] }) = some (8, 0) := by decide

theorem witness_StepKeepsTheBlockInvariant :
    parsedOne.Inv ∧ ∃ t, step { parsedOne with pending := [.resetLine true] } = .next t :=
  ⟨witness_Inv_with_payload.1, _, rfl⟩

end Sys2Proof.Tests
end

section
/-! PROOFS. The state and its registers (spec/10_state.md): the reset table (R36), the clamp of RXLEN (R31), and which
commands write RESULT (R25). -/

namespace Sys2Proof.Machine

/-! ### The reset table -/

/-- A TXBUF entry that nothing has written reads as its draw (R241). -/
theorem State.txAt_of_unwritten {s : State} {i : Nat} (h : s.tx.byte? i = none) :
    s.txAt i = Config.bufferDraw .tx s.drawEpoch i := by
  rw [State.txAt, State.bufferAt, h, Option.getD_none]

/-- An RXBUF entry that nothing has written reads as its draw (R241). -/
theorem State.rxAt_of_unwritten {s : State} {i : Nat} (h : s.rx.byte? i = none) :
    s.rxAt i = Config.bufferDraw .rx s.drawEpoch i := by
  rw [State.rxAt, State.bufferAt, h, Option.getD_none]

/-- Settles O45: the registers are the fields of `State.reset`, whose buffers have no written byte. -/
theorem resetHoldsTheResetTable : Obligations.ResetHoldsTheResetTable :=
  ⟨rfl, rfl, rfl, rfl, rfl, rfl, rfl, rfl, rfl, rfl, rfl, rfl, rfl, rfl, rfl,
    fun _ => ⟨State.txAt_of_unwritten rfl, State.rxAt_of_unwritten rfl⟩⟩

/-! ### RXLEN -/

/-- The clamp of R31 loses nothing in nine bits. -/
theorem writeRxlen_rxlen_toNat (w : Word) (s : State) : (writeRxlen w s).rxlen.toNat = min w.toNat 256 := by
  simp only [writeRxlen, State.setPv_rxlen, State.setRxlen_rxlen, Config.frameMax, BitVec.toNat_ofNat]
  omega

/-- RXLEN reads zero-extended (R51). -/
theorem memRead_rxlen (s : State) : memRead .rxlen s = BitVec.ofNat 32 s.rxlen.toNat :=
  (BitVec.ofNat_toNat 32 s.rxlen).symm

/-- Step 1 of the validation: no response is a timeout (R170). -/
theorem validate_of_rxlen_zero (fc : Byte) {s : State} (h : s.rxlen.toNat = 0) : validate fc s = some .timeout := by
  simp only [validate, h, if_true]

/-- A failed validation is the outcome of PRS.RD (R171). -/
theorem exec_prsRd_of_validate_some {s : State} {r : ResultCode} (h : validate Config.fcRead s = some r) :
    exec .prsRd s = .next (s.clearPayload.setResult r) := by
  simp only [exec, execPrsRd, h]

/-- A failed validation is the outcome of PRS.WR (R173). -/
theorem exec_prsWr_of_validate_some {s : State} {r : ResultCode} (h : validate Config.fcWrite s = some r) :
    exec .prsWr s = .next (s.clearPayload.setResult r) := by
  simp only [exec, execPrsWr, h]

/-- Settles O34: the write is `writeRxlen`, the read returns what it left, and step 1 of both parsers looks at RXLEN
alone. -/
theorem rxlenIsClampedToTheBuffer : Obligations.RxlenIsClampedToTheBuffer := by
  intro s w rest hr
  let read := readEvent s.params 0x028
  let t := writeRxlen w { s with pending := read :: rest }
  have hlen : t.rxlen.toNat = min w.toNat 256 := writeRxlen_rxlen_toNat w _
  have hread : step t = .next { t with pending := rest, reads := memRead .rxlen t :: t.reads } :=
    step_read t .rxlen rest hr
  refine ⟨t, step_write s .rxlen w (read :: rest) hr, hlen, by omega, ⟨_, hread, ?_⟩, fun hw => ?_⟩
  · rw [← hlen, ← memRead_rxlen]
    rfl
  · have h0 : t.rxlen.toNat = 0 := by rw [hlen, hw]; rfl
    exact ⟨⟨_, exec_prsRd_of_validate_some (validate_of_rxlen_zero _ h0), rfl⟩,
      ⟨_, exec_prsWr_of_validate_some (validate_of_rxlen_zero _ h0), rfl⟩⟩

/-! ### RESULT -/

/-- A failed validation names its outcome (R170, R200). -/
theorem validate_ne_some_none (fc : Byte) (s : State) : validate fc s ≠ some .none := by
  rcases validate_cases fc s with ⟨-, h⟩ | ⟨-, -, h⟩ | ⟨-, -, -, h⟩ | ⟨-, -, -, ⟨-, h⟩ | ⟨-, -, h⟩ | ⟨-, -, h⟩⟩ <;>
    simp [h]

/-- A failed echo check names its outcome (R173, R200). -/
theorem checkEcho_ne_some_none (s : State) : checkEcho s ≠ some .none := by
  rcases checkEcho_cases s with ⟨-, h⟩ | ⟨-, -, h⟩ | ⟨-, -, h⟩ <;> simp [h]

/-- PRS.RD leaves an outcome in RESULT. -/
theorem exec_prsRd_result_ne_none {s t : State} (h : exec .prsRd s = .next t) : t.result ≠ .none := by
  simp only [exec, execPrsRd] at h
  split at h <;> cases h
  case h_1 r hv =>
    rintro (rfl : r = .none)
    exact validate_ne_some_none _ _ hv
  case h_2 => exact ResultCode.noConfusion

/-- PRS.WR leaves an outcome in RESULT. -/
theorem exec_prsWr_result_ne_none {s t : State} (h : exec .prsWr s = .next t) : t.result ≠ .none := by
  simp only [exec, execPrsWr] at h
  split at h
  case h_1 r hv =>
    cases h
    rintro (rfl : r = .none)
    exact validate_ne_some_none _ _ hv
  case h_2 =>
    split at h <;> cases h
    case h_1 r he =>
      rintro (rfl : r = .none)
      exact checkEcho_ne_some_none _ he
    case h_2 => exact ResultCode.noConfusion

/-- DEC.PAY raises ILLEGAL or leaves SUCCESS or DECODE in RESULT (R131). -/
theorem exec_decPay_result {k : Byte} {m : BitVec 2} {s t : State} (h : exec (.decPay k m) s = .next t) :
    t = s.raiseIllegal ∨ t.result = .success ∨ t.result = .decode := by
  simp only [exec, execDecPay] at h
  split at h
  · cases h
    exact .inl rfl
  · split at h <;> cases h
    · exact .inr (.inl rfl)
    · exact .inr (.inr rfl)

/-- A command that neither validates nor decodes a payload keeps RESULT; CRC.TX and CRC.RX do so whether or not their
count is legal. -/
theorem exec_keeps_result {i : Instr} {s t : State} (hi : ¬ (i = .prsRd ∨ i = .prsWr ∨ ∃ k m, i = .decPay k m))
    (h : exec i s = .next t) : t.result = s.result := by
  cases i with
  | prsRd => exact absurd (.inl rfl) hi
  | prsWr => exact absurd (.inr (.inl rfl)) hi
  | decPay k m => exact absurd (.inr (.inr ⟨k, m, rfl⟩)) hi
  | crcTx n =>
    simp only [exec, execCrcTx] at h
    split at h <;> cases h <;> rfl
  | crcRx n =>
    simp only [exec, execCrcRx] at h
    split at h <;> cases h <;> rfl
  | _ => cases h; rfl

/-- Settles O40: the two parsers and DEC.PAY, each by what it leaves in RESULT; every other command keeps it. -/
theorem resultIsWrittenByValidationOnly : Obligations.ResultIsWrittenByValidationOnly := by
  refine fun i s t h => ⟨?_, fun hi => exec_keeps_result hi h⟩
  rintro (rfl | rfl | ⟨k, m, rfl⟩)
  · exact .inr (exec_prsRd_result_ne_none h)
  · exact .inr (exec_prsWr_result_ne_none h)
  · rcases exec_decPay_result h with hill | hs | hd
    · exact .inl hill
    · exact .inr (by simp [hs])
    · exact .inr (by simp [hd])

end Sys2Proof.Machine
end

section
/-! PROOFS. The register window (spec/20_memory.md): which offsets are legal, what a legal access does (R51, R52), and
illegal accesses (R53). -/

namespace Sys2Proof.Machine

/-! ### Legal offsets -/

/-- The offsets below the buffers are those of the thirteen registers (R21). -/
theorem Target.exists_offset_eq_of_lt {off : Nat} (h4 : off % 4 = 0) (h : off < 0x034) :
    ∃ t : Target, t.offset = off := by
  have hreg : ∀ i : Fin 13, Target.registers[i].offset = 4 * i.val := by decide
  exact ⟨_, (hreg ⟨off / 4, by omega⟩).trans (by simp only; omega)⟩

/-- The legal offsets are those that name a register or a buffer entry (R21, R51). -/
theorem Target.exists_offset_eq_iff {off : Nat} :
    (∃ t : Target, t.offset = off) ↔ off % 4 = 0 ∧ (off < 0x034 ∨ 0x400 ≤ off) ∧ off < 0xC00 := by
  constructor
  · rintro ⟨t, rfl⟩
    cases t with
    | txbuf i => simp only [Target.offset]; omega
    | rxbuf i => simp only [Target.offset]; omega
    | _ => decide
  · rintro ⟨h4, hlow | hbuf, hend⟩
    · exact Target.exists_offset_eq_of_lt h4 hlow
    · by_cases htx : off < 0x800
      · exact ⟨.txbuf ⟨(off - 0x400) / 4, by omega⟩, by simp only [Target.offset]; omega⟩
      · exact ⟨.rxbuf ⟨(off - 0x800) / 4, by omega⟩, by simp only [Target.offset]; omega⟩

/-! ### What a legal access does -/

/-- What RXBUF reads as after a write to one of its entries (R30, R51). -/
theorem writeRxByte_rxAt (i j : Nat) (w : Word) (s : State) :
    (writeRxByte i w s).rxAt j = if j = i then w.setWidth 8 else s.rxAt j :=
  State.rxAt_write s i j (w.setWidth 8)

/-- Settles O33: each read is `memRead` and each write is `memWrite`, at the offset of its register or buffer entry. -/
theorem legalAccessesFollowTheWindow : Obligations.LegalAccessesFollowTheWindow := by
  intro s w rest hr
  have hread := fun t => step_read s t rest hr
  have hwrite := fun t => step_write s t w rest hr
  refine ⟨?_, fun i hi => ?_, hwrite .cmd, ?_, hwrite .crc, hwrite .slave, hwrite .addr, hwrite .count, hwrite .value,
    hwrite .regpair, hwrite .rxlen⟩
  · show ∀ p ∈ Target.registers.map fun t => (t.offset, memRead t s), _
    exact List.forall_mem_map.2 fun t _ => hread t
  · exact ⟨hread (.txbuf ⟨i, hi⟩), hread (.rxbuf ⟨i, hi⟩), hwrite (.txbuf ⟨i, hi⟩), _, hwrite (.rxbuf ⟨i, hi⟩),
      fun j => writeRxByte_rxAt i j w _, rfl⟩
  · simp only [List.forall_mem_cons]
    exact ⟨hwrite .status, hwrite .tag, hwrite .txlen, hwrite .bytecount, hwrite .paylen, List.forall_mem_nil _⟩

/-! ### Runs of reads -/

/-- A read returns nothing of what the host has read before. -/
theorem memRead_withReads (t : Target) (s : State) (vs : List Word) :
    memRead t { s with reads := vs } = memRead t s := by
  cases t <;> rfl

/-- A run of legal reads leaves the block as it is and returns what each register or entry holds (R52). -/
theorem run_reads (ts : List Target) (s : State) (hr : s.inReset = false) :
    Host.Core.run Sys2Proof.core ts.length
      { s with pending := ts.map fun t => readEvent s.params t.offset } =
      .next { s with pending := [], reads := (ts.map (memRead · s)).reverse ++ s.reads } := by
  induction ts generalizing s with
  | nil => rfl
  | cons t ts ih =>
    refine (run_succ ts.length (step_read s t _ hr)).trans ((ih { s with reads := memRead t s :: s.reads } hr).trans ?_)
    simp only [memRead_withReads, List.map_cons, List.reverse_cons, List.append_assoc, List.singleton_append]

/-- Settles O35: the reads by `run_reads`; the writes by the register or entry that the offset names. -/
theorem readsHaveNoSideEffects : Obligations.ReadsHaveNoSideEffects := by
  refine ⟨fun s off between hr hoff hbetween => ?_, fun s u off w rest hr hoff hstep => ?_⟩
  · obtain ⟨t, rfl⟩ := Target.exists_offset_eq_iff.2 hoff
    obtain ⟨ts, rfl⟩ : between ∈ Set.range (List.map Target.offset) := by
      rw [Set.range_list_map]
      exact fun o ho => Target.exists_offset_eq_iff.2 (hbetween o ho)
    refine ⟨memRead t s, (ts.map (memRead · s)).reverse, by simp, ?_⟩
    simpa [Function.comp_def] using run_reads (t :: ts ++ [t]) s hr
  · obtain ⟨t, rfl⟩ := Target.exists_offset_eq_iff.2 hoff
    have hwrite : memWrite t w { s with pending := rest } = .next u := (step_write s t w rest hr).symm.trans hstep
    cases t with
    | cmd => exact hwrite
    | txbuf i =>
      cases hwrite
      simp (disch := omega) only [Target.offset, if_neg]
    | rxbuf i =>
      cases hwrite
      have hi : (0x800 + 4 * i.val - 0x800) / 4 = i.val := by omega
      simp (disch := omega) only [Target.offset, if_neg, if_pos, hi]
      exact ⟨rfl, fun j hj => (writeRxByte_rxAt i j w _).trans (if_neg hj)⟩
    | _ =>
      cases hwrite
      exact rfl

/-! ### Illegal accesses -/

/-- An address less than the window's size above BLOCK_BASE is in the window (R50). -/
theorem State.windowOffset_add (s : State) {off : Nat} (h : off < 4096) :
    s.windowOffset (s.params.blockBase + off) = some off := by
  rw [State.windowOffset, if_pos ⟨Nat.le_add_right _ _, Nat.add_lt_add_left h _⟩, Nat.add_sub_cancel_left]

/-- An access that starts in the window reaches the block (R50). -/
theorem State.reach_ne_outside (s : State) {off : Nat} (bits : Nat) (k : AccessKind) (h : off < 4096) :
    s.reach { addr := s.params.blockBase + off, bits := bits, kind := k } ≠ .outside := by
  simp only [State.reach, s.windowOffset_add h]
  split_ifs
  · cases Target.ofOffset off <;> simp
  · simp

/-- An access in the window is illegal if it is not 32 bits wide or its offset names nothing (R53). -/
theorem State.reach_eq_illegal (s : State) {off bits : Nat} (k : AccessKind) (h : off < 4096)
    (hbad : bits ≠ 32 ∨ ¬ ∃ t : Target, t.offset = off) :
    s.reach { addr := s.params.blockBase + off, bits := bits, kind := k } = .illegal := by
  cases hreach : s.reach { addr := s.params.blockBase + off, bits := bits, kind := k } with
  | illegal => rfl
  | outside => exact absurd hreach (s.reach_ne_outside bits k h)
  | target t =>
    obtain ⟨h32, haddr⟩ := State.reach_eq_target hreach
    have hoff : t.offset = off := (Nat.add_left_cancel haddr).symm
    exact absurd hbad (not_or.2 ⟨not_not.2 h32, not_not.2 ⟨t, hoff⟩⟩)

/-- An illegal access, out of reset. -/
theorem hostAccess_illegal {a : Access} {s : State} (hr : s.inReset = false) (h : s.reach a = .illegal) :
    hostAccess a s = .next (illegalAccess a.kind s) := by
  simp [hostAccess, hr, h]

/-- No command changes BUSERR. -/
theorem exec_keeps_buserr {i : Instr} {s t : State} (h : exec i s = .next t) : t.buserr = s.buserr := by
  rcases exec_cases i s with he | ⟨_, he⟩ | ⟨_, he⟩ | ⟨_, _, he⟩ | he | ⟨_, _, _, _, -, -, he⟩ | ⟨-, he⟩ | ⟨-, he⟩ |
    ⟨_, he⟩ | ⟨-, he⟩ <;>
  · cases he.symm.trans h
    simp only [buildFrame_buserr, State.setResult_buserr, State.clearPayload_eq, extractPayload_eq]

/-- No issue of a word changes BUSERR: it performs a command or raises ILLEGAL. -/
theorem issue_keeps_buserr {w : Word} {s t : State} (h : issue w s = .next t) : t.buserr = s.buserr := by
  rcases issue_cases w s with ⟨i, -, hi⟩ | ⟨e, -, he⟩
  · exact exec_keeps_buserr (hi.symm.trans h)
  · cases he.symm.trans h
    rfl

/-- No legal access changes BUSERR (R53). -/
theorem legalAccess_keeps_buserr {t : Target} {k : AccessKind} {s u : State} (h : legalAccess t k s = .next u) :
    u.buserr = s.buserr := by
  cases k with
  | read => cases h; rfl
  | write w =>
    cases t with
    | cmd => exact issue_keeps_buserr h
    | _ => cases h; rfl

/-- Settles O36: the accesses it calls bad are those that reach nothing, and no legal access changes BUSERR. -/
theorem illegalAccessOnlyRaisesBuserr : Obligations.IllegalAccessOnlyRaisesBuserr := by
  intro s off bits rest hr hoff bad event
  refine ⟨fun hbad => ?_, fun hgood k u hstep => ?_⟩
  · have hnone : bits ≠ 32 ∨ ¬ ∃ t : Target, t.offset = off := by
      rw [Target.exists_offset_eq_iff]
      omega
    have hillegal := fun k =>
      hostAccess_illegal (s := { s with pending := rest }) hr (State.reach_eq_illegal _ k hoff hnone)
    exact ⟨hillegal .read, fun w => hillegal (.write w)⟩
  · obtain ⟨t, rfl⟩ : ∃ t : Target, t.offset = off := by
      rw [Target.exists_offset_eq_iff]
      omega
    obtain rfl : bits = 32 := by omega
    have hlegal : legalAccess t k { s with pending := rest } = .next u :=
      (hostAccess_target t k { s with pending := rest } hr).symm.trans hstep
    exact legalAccess_keeps_buserr (s := { s with pending := rest }) hlegal

end Sys2Proof.Machine
end

section
/-! PROOFS. The encoding (spec/30_encoding.md): the four formats of R72, the row of a command in R76, when a word
decodes to a command, and the illegal encodings (R77). -/

namespace Sys2Proof

/-! ### Formats and rows -/

/-- The four formats of a command word (R72). -/
inductive Format where
  | z
  | b
  | n
  | km

/-- The bits that are not an operand: the column "mask" of R76. -/
def Format.mask : Format → Word
  | .z => 0xFFFFFFFF
  | .b => 0xFFFF00FF
  | .n => 0xFE00FFFF
  | .km => 0xFFFC00FF

/-- The bits that the format marks `0` are 0 (R72). -/
def Format.ReservedZero (w : Word) : Format → Prop
  | .z => w.extractLsb' 8 24 = 0
  | .b => w.extractLsb' 16 16 = 0
  | .n => w.extractLsb' 25 7 = 0 ∧ w.extractLsb' 8 8 = 0
  | .km => w.extractLsb' 18 14 = 0

/-- The format of a command's row (R76). -/
def Instr.format : Instr → Format
  | .crcByte _ => .b
  | .crcTx _ | .crcRx _ => .n
  | .decPay _ _ => .km
  | _ => .z

/-- The OP of a command's row (R76). -/
def Instr.op : Instr → Byte
  | .crcInit => 0x01#8
  | .crcByte _ => 0x02#8
  | .crcTx _ => 0x03#8
  | .crcRx _ => 0x04#8
  | .encF32 => 0x10#8
  | .encI32 => 0x11#8
  | .encU32 => 0x12#8
  | .decF32 => 0x18#8
  | .decI32 => 0x19#8
  | .decU32 => 0x1A#8
  | .decPay _ _ => 0x1C#8
  | .bldRd => 0x20#8
  | .bldWr => 0x21#8
  | .prsRd => 0x30#8
  | .prsWr => 0x31#8

/-- The operands are the fields of the word (R73–R75). -/
def Instr.HasOperandsOf (w : Word) : Instr → Prop
  | .crcByte b => b = bField w
  | .crcTx n | .crcRx n => n = nField w
  | .decPay k m => k = kField w ∧ m = mField w
  | _ => True

/-! ### Masks -/

/-- Two words agree on a range of bits iff they agree on its two parts. -/
theorem extractLsb'_add_eq_iff (x y : Word) (start a b : Nat) :
    x.extractLsb' start (b + a) = y.extractLsb' start (b + a) ↔
      x.extractLsb' start a = y.extractLsb' start a ∧ x.extractLsb' (start + a) b = y.extractLsb' (start + a) b := by
  simp only [← BitVec.extractLsb'_append_extractLsb'_eq_extractLsb' (rfl : start + a = start + a)]
  constructor
  · intro h
    have hlow := congrArg (BitVec.extractLsb' 0 a) h
    have hhigh := congrArg (BitVec.extractLsb' a b) h
    simp only [BitVec.extractLsb'_append_eq_right] at hlow
    simp only [BitVec.extractLsb'_append_eq_left] at hhigh
    exact ⟨hlow, hhigh⟩
  · rintro ⟨hlow, hhigh⟩
    rw [hlow, hhigh]

/-- A range of bits is 0 iff its two parts are. -/
theorem extractLsb'_add_eq_zero_iff (x : Word) (start a b : Nat) :
    x.extractLsb' start (b + a) = 0 ↔ x.extractLsb' start a = 0 ∧ x.extractLsb' (start + a) b = 0 := by
  simpa using extractLsb'_add_eq_iff x 0 start a b

/-- A word is its OP byte and the 24 bits above it. -/
theorem word_eq_iff_opField (x y : Word) :
    x = y ↔ opField x = opField y ∧ x.extractLsb' 8 24 = y.extractLsb' 8 24 := by
  simpa [opField] using extractLsb'_add_eq_iff x y 0 8 24

/-- Above the OP byte, the masked bits are 0 iff the reserved bits are. -/
theorem Format.extractLsb'_and_mask_eq_zero_iff (f : Format) (w : Word) :
    (w &&& f.mask).extractLsb' 8 24 = 0 ↔ f.ReservedZero w := by
  cases f with
  | z =>
    have hreserved : Format.z.mask.extractLsb' 8 24 = BitVec.allOnes 24 := rfl
    rw [BitVec.extractLsb'_and, hreserved, BitVec.and_allOnes, Format.ReservedZero]
  | b =>
    have hoperand : Format.b.mask.extractLsb' 8 8 = 0 := rfl
    have hreserved : Format.b.mask.extractLsb' 16 16 = BitVec.allOnes 16 := rfl
    rw [extractLsb'_add_eq_zero_iff _ 8 8 16, BitVec.extractLsb'_and, BitVec.extractLsb'_and, hoperand, hreserved,
      BitVec.and_allOnes, Format.ReservedZero]
    exact and_iff_right BitVec.and_zero
  | n =>
    have hlow : Format.n.mask.extractLsb' 8 8 = BitVec.allOnes 8 := rfl
    have hoperand : Format.n.mask.extractLsb' 16 9 = 0 := rfl
    have hhigh : Format.n.mask.extractLsb' 25 7 = BitVec.allOnes 7 := rfl
    rw [extractLsb'_add_eq_zero_iff _ 8 8 16, extractLsb'_add_eq_zero_iff _ 16 9 7, BitVec.extractLsb'_and,
      BitVec.extractLsb'_and, BitVec.extractLsb'_and, hlow, hoperand, hhigh, BitVec.and_allOnes, BitVec.and_allOnes,
      Format.ReservedZero, and_comm]
    exact and_congr_left' (and_iff_right BitVec.and_zero)
  | km =>
    have hoperand : Format.km.mask.extractLsb' 8 10 = 0 := rfl
    have hreserved : Format.km.mask.extractLsb' 18 14 = BitVec.allOnes 14 := rfl
    rw [extractLsb'_add_eq_zero_iff _ 8 10 14, BitVec.extractLsb'_and, BitVec.extractLsb'_and, hoperand, hreserved,
      BitVec.and_allOnes, Format.ReservedZero]
    exact and_iff_right BitVec.and_zero

/-- No mask hides a bit of OP. -/
theorem Format.opField_and_mask (f : Format) (w : Word) : opField (w &&& f.mask) = opField w := by
  have hmask : f.mask.extractLsb' 0 8 = BitVec.allOnes 8 := by cases f <;> rfl
  rw [opField, BitVec.extractLsb'_and, hmask, BitVec.and_allOnes, opField]

/-- A word selects a row, whose match is its OP with zeros above it, iff the word has that OP and the reserved bits of
the row's format are 0 (R72, R76). -/
theorem Format.and_mask_eq_iff (f : Format) (op : Byte) (w : Word) :
    w &&& f.mask = encodeZ op ↔ opField w = op ∧ f.ReservedZero w := by
  rw [word_eq_iff_opField, f.opField_and_mask, opField_encodeZ, reserved_encodeZ, f.extractLsb'_and_mask_eq_zero_iff]

/-! ### When a word decodes -/

/-- A word that decodes has the OP of its command. -/
theorem opField_of_decode {w : Word} {i : Instr} (h : decode w = .ok i) : opField w = i.op := by
  rcases decode_cases w with ⟨hop, hd⟩ | ⟨hop, hd⟩ | ⟨hop, hd⟩ | ⟨hop, hd⟩ | ⟨hop, hd⟩ | ⟨hop, hd⟩ | ⟨hop, hd⟩ |
    ⟨hop, hd⟩ | ⟨hop, hd⟩ | ⟨hop, hd⟩ | ⟨hop, hd⟩ | ⟨hop, hd⟩ | ⟨hop, hd⟩ | ⟨hop, hd⟩ | ⟨hop, hd⟩ | ⟨-, hd⟩ <;>
  simp only [hd, decodeZ_eq_ok, decodeB_eq_ok, decodeN_eq_ok, decodeKM_eq_ok, reduceCtorEq] at h <;>
  simp only [h, hop, Instr.op]

/-- A word with the OP of a command decodes to it iff its reserved bits are 0, the operands pass the value checks, and
they are the fields of the word. -/
theorem decode_eq_ok_iff_of_op {w : Word} {i : Instr} (h : opField w = i.op) :
    decode w = .ok i ↔ i.format.ReservedZero w ∧ i.WellFormed ∧ i.HasOperandsOf w := by
  cases i with
  | crcByte b =>
    have hd : decode w = decodeB w .crcByte := by simp [decode, h, Instr.op]
    rw [hd, decodeB_eq_ok, Instr.crcByte.injEq]
    exact and_congr_right' (and_iff_right rfl).symm
  | crcTx n =>
    have hd : decode w = decodeN w .crcTx := by simp [decode, h, Instr.op]
    rw [hd, decodeN_eq_ok, Instr.crcTx.injEq]
    exact and_congr_right' (and_congr_left fun hn => hn ▸ decide_eq_true_iff.symm)
  | crcRx n =>
    have hd : decode w = decodeN w .crcRx := by simp [decode, h, Instr.op]
    rw [hd, decodeN_eq_ok, Instr.crcRx.injEq]
    exact and_congr_right' (and_congr_left fun hn => hn ▸ decide_eq_true_iff.symm)
  | decPay k m =>
    have hd : decode w = decodeKM w .decPay := by simp [decode, h, Instr.op]
    rw [hd, decodeKM_eq_ok, Instr.decPay.injEq]
    exact and_congr_right' (and_congr_left fun hkm => hkm.2 ▸ decide_eq_true_iff.symm)
  | _ => simp [decode, h, Instr.op, decodeZ_eq_ok, Instr.format, Format.ReservedZero, Instr.HasOperandsOf,
      Instr.WellFormed, Instr.wf]

/-- When a word decodes to a command: it has the OP and the format of the command's row, and the operands are its fields
and pass the value checks (R72–R76). -/
theorem decode_eq_ok_iff {w : Word} {i : Instr} :
    decode w = .ok i ↔ opField w = i.op ∧ i.format.ReservedZero w ∧ i.WellFormed ∧ i.HasOperandsOf w :=
  ⟨fun h => ⟨opField_of_decode h, (decode_eq_ok_iff_of_op (opField_of_decode h)).1 h⟩,
    fun ⟨hop, h⟩ => (decode_eq_ok_iff_of_op hop).2 h⟩

/-- A word decodes to a command with the word's fields as operands iff it selects the command's row and the operands
pass the value checks (R76). -/
theorem decode_eq_ok_iff_selects_and_wellFormed {w : Word} {i : Instr} (h : i.HasOperandsOf w) :
    decode w = .ok i ↔ w &&& i.format.mask = encodeZ i.op ∧ i.WellFormed := by
  rw [Format.and_mask_eq_iff, decode_eq_ok_iff, and_assoc, and_iff_left h]

/-- In a row without value checks, selecting is decoding (R76). -/
theorem decode_eq_ok_iff_selects {w : Word} {i : Instr} (h : i.HasOperandsOf w) (hwf : i.WellFormed) :
    decode w = .ok i ↔ w &&& i.format.mask = encodeZ i.op :=
  (decode_eq_ok_iff_selects_and_wellFormed h).trans (and_iff_left hwf)

end Sys2Proof

namespace Sys2Proof.Machine

/-! ### Illegal encodings -/

/-- CRC.TX past 256 or past TXLEN is illegal (R107). -/
theorem exec_crcTx_of_count_gt {n : Len} {s : State} (h : 256 < n.toNat ∨ s.txlen.toNat < n.toNat) :
    exec (.crcTx n) s = .next s.raiseIllegal :=
  if_neg (by rw [countLegal_iff]; omega)

/-- CRC.RX past 256 or past RXLEN is illegal (R108). -/
theorem exec_crcRx_of_count_gt {n : Len} {s : State} (h : 256 < n.toNat ∨ s.rxlen.toNat < n.toNat) :
    exec (.crcRx n) s = .next s.raiseIllegal :=
  if_neg (by rw [countLegal_iff]; omega)

/-- Settles O31: a word that does not decode raises ILLEGAL; one that decodes meets no ground but a count past TXLEN or
RXLEN. -/
theorem illegalEncodingsOnlyRaiseIllegal : Obligations.IllegalEncodingsOnlyRaiseIllegal := by
  intro w s h
  rcases issue_cases w s with ⟨i, hd, hi⟩ | ⟨e, -, he⟩
  · obtain ⟨hop, hres, hwf, hargs⟩ := decode_eq_ok_iff.1 hd
    rw [hi]
    rw [← opField, hop] at h
    cases i with
    | crcTx n =>
      obtain rfl : n = w.extractLsb' 16 9 := hargs
      exact exec_crcTx_of_count_gt (by simpa [Instr.op, hres.1, hres.2, -BitVec.extractLsb'_toNat] using h)
    | crcRx n =>
      obtain rfl : n = w.extractLsb' 16 9 := hargs
      exact exec_crcRx_of_count_gt (by simpa [Instr.op, hres.1, hres.2, -BitVec.extractLsb'_toNat] using h)
    | decPay k m =>
      obtain rfl : m = w.extractLsb' 16 2 := hargs.2
      have hground : ¬ w.extractLsb' 18 14 = 0 ∨ w.extractLsb' 16 2 = 3 := by simpa [Instr.op] using h
      exact absurd hground (not_or.2 ⟨not_not.2 hres, of_decide_eq_true hwf⟩)
    | _ => exact absurd hres (by simpa [Instr.op, Instr.format, Format.ReservedZero] using h)
  · exact he

/-! ### The decoder, row by row -/

/-- A word whose count is checked against 256 by the decoder and against a length by the command: it is performed when
it passes both checks, and raises ILLEGAL when it fails one. -/
theorem issue_of_count_row {w : Word} {i : Instr} {s : State} {n len : Len} (hok : n.toNat ≤ 256 → decode w = .ok i)
    (hill : 256 < n.toNat ∨ len.toNat < n.toNat → issue w s = .next { s with illegal := true }) :
    issue w s = if n.toNat ≤ 256 ∧ n.toNat ≤ len.toNat then exec i s else .next { s with illegal := true } := by
  split_ifs with hn
  · exact issue_ok s (hok hn.1)
  · exact hill (by omega)

/-- Settles O28: a word selects a row iff it has its OP and reserved bits of 0, which is when it decodes but for the
value checks; the OP byte, which every mask keeps, tells the rows apart. -/
theorem decoderFollowsMaskAndMatch : Obligations.DecoderFollowsMaskAndMatch := by
  unfold Obligations.DecoderFollowsMaskAndMatch
  intro rows
  have hbyte := fun w => @decode_eq_ok_iff_selects w (.crcByte (bField w)) rfl rfl
  have htx := fun w => @decode_eq_ok_iff_selects_and_wellFormed w (.crcTx (nField w)) rfl
  have hrx := fun w => @decode_eq_ok_iff_selects_and_wellFormed w (.crcRx (nField w)) rfl
  have hpay := fun w => @decode_eq_ok_iff_selects_and_wellFormed w (.decPay (kField w) (mField w)) ⟨rfl, rfl⟩
  simp only [Instr.WellFormed, Instr.wf, decide_eq_true_iff] at htx hrx hpay
  refine ⟨fun w => ⟨fun p hp => Iff.symm ?_, (hbyte w).symm, (htx w).symm, (hrx w).symm, (hpay w).symm,
    fun hnone => ?_⟩, ?_, fun s w => ⟨fun hsel => ?_, fun hsel => ?_⟩⟩
  · fin_cases hp <;> exact decode_eq_ok_iff_selects trivial rfl
  · cases hd : decode w with
    | ok i =>
      obtain ⟨hop, hres, -⟩ := decode_eq_ok_iff.1 hd
      have hrow : (i.format.mask, encodeZ i.op) ∈ rows := by
        cases i <;> simp [rows, Instr.format, Format.mask, Instr.op, encodeZ]
      exact absurd ((Format.and_mask_eq_iff _ _ w).2 ⟨hop, hres⟩) (hnone _ hrow)
    | error e => exact ⟨e, rfl⟩
  · have hop : rows.Pairwise fun p q => p.1 &&& 0xFF = 0xFF ∧ q.1 &&& 0xFF = 0xFF ∧ p.2 &&& 0xFF ≠ q.2 &&& 0xFF := by
      decide
    refine hop.imp fun ⟨hp, hq, hne⟩ w ⟨hwp, hwq⟩ => hne ?_
    rw [← hwp, ← hwq, BitVec.and_assoc, BitVec.and_assoc, hp, hq]
  · obtain ⟨hop, -⟩ := (Format.and_mask_eq_iff .n 0x03 w).1 hsel
    refine issue_of_count_row (fun hmax => (htx w).2 ⟨hsel, hmax⟩) fun hill => illegalEncodingsOnlyRaiseIllegal w s ?_
    rcases hill with hmax | hlen
    · exact .inr (.inr (.inr (.inl ⟨.inl hop, .inr (.inr hmax)⟩)))
    · exact .inr (.inr (.inr (.inr (.inl ⟨hop, hlen⟩))))
  · obtain ⟨hop, -⟩ := (Format.and_mask_eq_iff .n 0x04 w).1 hsel
    refine issue_of_count_row (fun hmax => (hrx w).2 ⟨hsel, hmax⟩) fun hill => illegalEncodingsOnlyRaiseIllegal w s ?_
    rcases hill with hmax | hlen
    · exact .inr (.inr (.inr (.inl ⟨.inr hop, .inr (.inr hmax)⟩)))
    · exact .inr (.inr (.inr (.inr (.inr (.inl ⟨hop, hlen⟩)))))

end Sys2Proof.Machine
end

section
/-! PROOFS. The CRC engine (spec/41_crc.md): the CRC16 function (R100), its residue (R104), and the four CRC commands,
as meanings and by word (R105–R108). -/

namespace Sys2Proof.Machine

/-! ### The function -/

theorem crcShifts_eq_iterate (n : Nat) (c : Half) : crcShifts n c = crcShift^[n] c := by
  induction n generalizing c with
  | zero => rfl
  | succ n ih => exact ih (crcShift c)

theorem crcFrom_eq_foldl (c : Half) (bytes : List Byte) : crcFrom c bytes = bytes.foldl crcStep c := by
  induction bytes generalizing c with
  | nil => rfl
  | cons b bytes ih => exact ih (crcStep c b)

/-- Settles O1: the step's eight shifts are an iterate of the one shift, and the loop of `crc16` is a left fold. -/
theorem crcFunctionIsShiftAndXor : Obligations.CrcFunctionIsShiftAndXor :=
  ⟨fun c b => crcShifts_eq_iterate 8 (c ^^^ b.setWidth 16), crcFrom_eq_foldl 0xFFFF⟩

/-! ### The residue -/

/-- While the bits that fall out are 0, the polynomial stays out. -/
theorem crcShifts_of_low_bits_zero {n : Nat} {c : Half} (h : ∀ i < n, c.getLsbD i = false) :
    crcShifts n c = c >>> n := by
  induction n generalizing c with
  | zero => simp
  | succ n ih =>
    have hshift : ∀ i < n, (c >>> 1).getLsbD i = false := fun i hi => by
      rw [BitVec.getLsbD_ushiftRight]
      exact h (1 + i) (by omega)
    rw [crcShifts_succ, crcShift_even (h 0 n.succ_pos), ih hshift, Nat.add_comm, BitVec.shiftRight_add]

/-- Feeding a CRC its own low byte cancels that byte and leaves the high one. -/
theorem crcStep_lo8 (c : Half) : crcStep c (lo8 c) = (hi8 c).setWidth 16 := by
  have hlow : ∀ i < 8, (c ^^^ (lo8 c).setWidth 16).getLsbD i = false := fun i hi => by
    simp [lo8, hi, show i < 16 by omega]
  rw [crcStep, crcShifts_of_low_bits_zero hlow]
  refine BitVec.eq_of_getLsbD_eq fun i hi => ?_
  by_cases hbyte : i < 8
  · simp [lo8, hi8, hi, hbyte]
  · simp [lo8, hi8, hi, hbyte, BitVec.getLsbD_of_ge c (8 + i) (by omega)]

/-- Feeding a CRC its own bytes, low byte first, leaves 0. -/
theorem crcFrom_crcBytes (c : Half) : crcFrom c (crcBytes c) = 0 := by
  have hhigh : crcStep ((hi8 c).setWidth 16) (hi8 c) = 0 := by
    rw [crcStep, BitVec.xor_self, crcShifts_of_low_bits_zero (by simp)]
    rfl
  rw [crcBytes, crcFrom_cons, crcFrom_cons, crcFrom_nil, crcStep_lo8, hhigh]

/-- A frame that ends in its CRC has CRC 0 (R104). -/
theorem crc16_append_crcBytes (f : List Byte) : crc16 (f ++ crcBytes (crc16 f)) = 0 := by
  rw [crc16_append, crcFrom_crcBytes]

/-- Settles O2: the CRC goes on from that of the sequence, over its own two bytes. -/
theorem crcResidueIsZero : Obligations.CrcResidueIsZero := crc16_append_crcBytes

/-! ### Issue by word -/

/-- A format N word that is not legal as it stands has a reserved bit set or a count above 256 (R72, R74). -/
theorem reserved_ne_zero_or_count_gt {w : Word} (h : ¬ (Format.n.ReservedZero w ∧ (nField w).toNat ≤ 256)) :
    w.extractLsb' 8 8 ≠ 0 ∨ w.extractLsb' 25 7 ≠ 0 ∨ (w.extractLsb' 16 9).toNat > 256 := by
  simp only [Format.ReservedZero, nField, not_and_or, not_le] at h
  tauto

/-- A word with the OP of a command and the command's operands performs it when the reserved bits are 0 and the value
checks pass, and raises ILLEGAL otherwise (R70–R77). -/
theorem issue_of_op {w : Word} {i : Instr} {legal : Prop} [Decidable legal] (s : State) (hop : opField w = i.op)
    (hargs : i.HasOperandsOf w) (hlegal : legal ↔ i.format.ReservedZero w ∧ i.WellFormed) :
    issue w s = if legal then exec i s else .next { s with illegal := true } := by
  split_ifs with h
  · obtain ⟨hres, hwf⟩ := hlegal.1 h
    exact issue_ok s ((decode_eq_ok_iff_of_op hop).2 ⟨hres, hwf, hargs⟩)
  · rw [hlegal] at h
    refine illegalEncodingsOnlyRaiseIllegal w s ?_
    rw [← opField, hop]
    cases i with
    | crcByte b => exact .inr (.inr (.inl ⟨rfl, fun hres => h ⟨hres, rfl⟩⟩))
    | crcTx n =>
      obtain rfl : n = nField w := hargs
      exact .inr (.inr (.inr (.inl ⟨.inl rfl, reserved_ne_zero_or_count_gt fun hc => h ⟨hc.1, decide_eq_true hc.2⟩⟩)))
    | crcRx n =>
      obtain rfl : n = nField w := hargs
      exact .inr (.inr (.inr (.inl ⟨.inr rfl, reserved_ne_zero_or_count_gt fun hc => h ⟨hc.1, decide_eq_true hc.2⟩⟩)))
    | decPay k m =>
      obtain rfl : m = mField w := hargs.2
      have hbad : ¬ w.extractLsb' 18 14 = 0 ∨ ¬ mField w ≠ 3 :=
        not_and_or.1 fun hc => h ⟨hc.1, decide_eq_true hc.2⟩
      exact .inr (.inr (.inr (.inr (.inr (.inr ⟨rfl, hbad.imp_right not_not.1⟩)))))
    | _ => exact .inr (.inl ⟨by simp [Instr.op], fun hres => h ⟨hres, rfl⟩⟩)

/-- Settles O3: the one word with OP 0x01 and zeros above it is 0x00000001. -/
theorem crcInitWritesInitialValue : Obligations.CrcInitWritesInitialValue := fun s => by
  refine ⟨rfl, fun w hop => issue_of_op (i := .crcInit) s hop trivial ?_⟩
  rw [word_eq_iff_opField]
  exact ⟨fun h => ⟨h.2, rfl⟩, fun h => ⟨hop, h.1⟩⟩

/-! ### CRC.BYTE -/

/-- A run of CRC.BYTE lines feeds their bytes to the running CRC. -/
theorem run_crcByteLines (bytes : List Byte) (s : State) (hr : s.inReset = false) :
    Host.Core.run Sys2Proof.core bytes.length
      { s with pending := (bytes.map fun b => HostLine.cmd (.crcByte b)).map (HostLine.event s.params) } =
      .next { s with crc := crcFrom s.crc bytes, pending := [] } := by
  induction bytes generalizing s with
  | nil => rfl
  | cons b bytes ih =>
    exact (run_succ _ (step_cmdLine s (.crcByte b) _ hr (Laws.RoundTrip.crcByte b rfl))).trans
      (ih { s with crc := crcStep s.crc b } hr)

/-- Settles O4: the run is CRC.INIT and then `run_crcByteLines` from 0xFFFF. -/
theorem crcByteFeedsOneByte : Obligations.CrcByteFeedsOneByte :=
  ⟨fun _ _ => rfl, fun s _ hop => issue_of_op (i := .crcByte _) s hop rfl (and_iff_left rfl).symm,
    fun s bytes hr => (run_succ _ (step_cmdLine s .crcInit _ hr (Laws.RoundTrip.crcInit rfl))).trans
      (run_crcByteLines bytes { s with crc := 0xFFFF } hr)⟩

/-! ### CRC.TX and CRC.RX -/

/-- CRC.TX as a whole (R107). -/
theorem exec_crcTx (n : Len) (s : State) : exec (.crcTx n) s =
    if n.toNat ≤ 256 ∧ n.toNat ≤ s.txlen.toNat then .next { s with crc := crc16 ((List.range n.toNat).map s.txAt) }
    else .next { s with illegal := true } := by
  rw [← State.txBytes_eq_map]
  exact if_congr (countLegal_iff n s.txlen) rfl rfl

/-- CRC.RX as a whole (R108). -/
theorem exec_crcRx (n : Len) (s : State) : exec (.crcRx n) s =
    if n.toNat ≤ 256 ∧ n.toNat ≤ s.rxlen.toNat then .next { s with crc := crc16 ((List.range n.toNat).map s.rxAt) }
    else .next { s with illegal := true } := by
  rw [← State.rxBytes_eq_map]
  exact if_congr (countLegal_iff n s.rxlen) rfl rfl

/-- CRC.TX within its limits, when the bytes it covers are known (R107). -/
theorem exec_crcTx_of_txBytes_eq {n : Len} {s : State} {bytes : List Byte} (hbytes : s.txBytes 0 n.toNat = bytes)
    (hmax : n.toNat ≤ 256) (hlen : n.toNat ≤ s.txlen.toNat) :
    exec (.crcTx n) s = .next { s with crc := crc16 bytes } := by
  rw [exec_crcTx, if_pos ⟨hmax, hlen⟩, ← State.txBytes_eq_map, hbytes]

/-- The bytes of a built frame before its CRC. -/
theorem buildFrame_txBytes_prefix (f : List Byte) (len : Len) (s : State) :
    (buildFrame f len s).txBytes 0 f.length = f :=
  List.append_inj_left ((State.txBytes_append _ 0 f.length 2).symm.trans (buildFrame_txBytes f len s)) (by simp)

/-- A word of the CRC.TX or CRC.RX row, whose count the decoder checks against 256 and the command against 256 and a
length register. -/
theorem issue_of_count {w : Word} {i : Instr} {s t : State} {len : Len} (hop : opField w = i.op)
    (hargs : i.HasOperandsOf w) (hformat : i.format = .n) (hwf : i.WellFormed ↔ (nField w).toNat ≤ 256)
    (hexec : exec i s = if (nField w).toNat ≤ 256 ∧ (nField w).toNat ≤ len.toNat then .next t
      else .next { s with illegal := true }) :
    issue w s = if w.extractLsb' 25 7 = 0 ∧ w.extractLsb' 8 8 = 0 ∧ (nField w).toNat ≤ 256 ∧
        (nField w).toNat ≤ len.toNat
      then .next t else .next { s with illegal := true } := by
  have hlegal : (w.extractLsb' 25 7 = 0 ∧ w.extractLsb' 8 8 = 0) ∧ (nField w).toNat ≤ 256 ↔
      i.format.ReservedZero w ∧ i.WellFormed := by
    rw [hformat, hwf, Format.ReservedZero]
  rw [issue_of_op s hop hargs hlegal, hexec, ← ite_and]
  exact if_congr (by tauto) rfl rfl

/-- Settles O5: the meaning is `exec_crcTx` and a word is `issue_of_count`; after BLD.RD the first 6 bytes of TXBUF are
the request and the first 8 the request with its CRC, so that CRC.TX 8 gives the residue. -/
theorem crcTxCoversThePrefix : Obligations.CrcTxCoversThePrefix := by
  refine ⟨fun s n => exec_crcTx n s,
    fun s _ hop => issue_of_count (i := .crcTx _) hop rfl rfl decide_eq_true_iff (exec_crcTx _ s), fun s t ht => ?_⟩
  obtain rfl : buildFrame (readRequest s) 8 s = t := Host.Outcome.next.inj ht
  refine ⟨?_, ?_, ?_⟩
  · exact exec_crcTx_of_txBytes_eq (buildFrame_txBytes_prefix (readRequest s) 8 s) (by decide) (by simp)
  · rw [← crc16_append_crcBytes (readRequest s)]
    exact exec_crcTx_of_txBytes_eq (buildFrame_txBytes (readRequest s) 8 s) (by decide) (by simp)
  · exact exec_crcTx_of_txBytes_eq rfl (Nat.zero_le _) (Nat.zero_le _)

/-- Settles O6: the meaning is `exec_crcRx` and a word is `issue_of_count`. -/
theorem crcRxCoversThePrefix : Obligations.CrcRxCoversThePrefix :=
  ⟨fun s n => exec_crcRx n s,
    fun s _ hop => issue_of_count (i := .crcRx _) hop rfl rfl decide_eq_true_iff (exec_crcRx _ s)⟩

end Sys2Proof.Machine
end

section
/-! PROOFS. The register codec (spec/42_codec.md): split and join (R120), the encoders and decoders as meanings and by
word (R122–R128), the round trip (R129), and DEC.PAY, whose three modes read one pattern (R130–R132). -/

namespace Sys2Proof.Machine

/-! ### Split and join -/

/-- The number of two bit patterns in a row. -/
theorem append_toNat {m n : Nat} (x : BitVec m) (y : BitVec n) : (x ++ y).toNat = x.toNat * 2 ^ n + y.toNat := by
  rw [BitVec.toNat_append, ← Nat.shiftLeft_add_eq_or_of_lt y.isLt, Nat.shiftLeft_eq]

/-- `join` is `hi : lo` (R120). -/
theorem join_eq_append (hi lo : Half) : join hi lo = hi ++ lo := by
  rw [join, ← BitVec.setWidth_append_eq_shiftLeft_setWidth_or, BitVec.setWidth_eq]

/-- `half` is `b0:b1` (R54). -/
theorem half_eq_append (hi lo : Byte) : half hi lo = hi ++ lo := by
  rw [half, ← BitVec.setWidth_append_eq_shiftLeft_setWidth_or, BitVec.setWidth_eq]

theorem join_toNat (hi lo : Half) : (join hi lo).toNat = hi.toNat * 2 ^ 16 + lo.toNat := by
  rw [join_eq_append, append_toNat]

@[simp] theorem join_split (v : Word) : join (splitHi v) (splitLo v) = v :=
  (join_eq_append _ _).trans BitVec.extractLsb'_append_extractLsb'

@[simp] theorem splitHi_join (hi lo : Half) : splitHi (join hi lo) = hi := by
  rw [join_eq_append]
  exact BitVec.extractLsb'_append_eq_left

@[simp] theorem splitLo_join (hi lo : Half) : splitLo (join hi lo) = lo := by
  rw [join_eq_append]
  exact BitVec.extractLsb'_append_eq_right

/-- Settles O7: `join` is the concatenation, and its number fixes the numbers of the two halves. -/
theorem splitAndJoinAreInverse : Obligations.SplitAndJoinAreInverse := by
  refine ⟨fun v => ?_, join_toNat, join_split, fun hi lo => ⟨splitHi_join hi lo, splitLo_join hi lo⟩⟩
  have hv : v.toNat = (splitHi v).toNat * 2 ^ 16 + (splitLo v).toNat := by rw [← join_toNat, join_split]
  have hlo := (splitLo v).isLt
  omega

/-! ### Encoders and decoders -/

/-- A format Z command has no operand and no value check (R72, R76). -/
theorem hasOperandsOf_and_wellFormed_of_format_z {i : Instr} (w : Word) (h : i.format = .z) :
    i.HasOperandsOf w ∧ i.WellFormed := by
  cases i with
  | crcByte | crcTx | crcRx | decPay => cases h
  | _ => exact ⟨trivial, rfl⟩

/-- A word with the OP of a format Z command performs the command if it is the bare OP, and raises ILLEGAL otherwise
(R72, R76). -/
theorem issue_of_bareOp {w : Word} {i : Instr} (s : State) (hop : opField w = i.op) (hformat : i.format = .z) :
    issue w s = if w = encodeZ i.op then exec i s else .next { s with illegal := true } := by
  obtain ⟨hargs, hwf⟩ := hasOperandsOf_and_wellFormed_of_format_z w hformat
  refine issue_of_op s hop hargs ?_
  rw [word_eq_iff_opField, opField_encodeZ, reserved_encodeZ, hformat]
  exact ⟨fun h => ⟨h.2, hwf⟩, fun h => ⟨hop, h.1⟩⟩

/-- Settles O9: each meaning is `encodeValue` with its TAG, and each word is `issue_of_bareOp`. -/
theorem encodersCopyValueToRegpair : Obligations.EncodersCopyValueToRegpair := by
  refine fun s => ⟨rfl, rfl, rfl, fun i t hi h => ?_,
    fun _ hop => issue_of_bareOp (i := .encF32) s hop rfl,
    fun _ hop => issue_of_bareOp (i := .encI32) s hop rfl,
    fun _ hop => issue_of_bareOp (i := .encU32) s hop rfl⟩
  rcases hi with rfl | rfl | rfl <;> cases h <;> exact ⟨rfl, rfl⟩

/-- The halves of REGPAIR joined are REGPAIR, so that the decoders copy it bit for bit (R126–R128). -/
theorem decodePair_eq_regpair (t : Tag) (s : State) : decodePair t s = { s with value := s.regpair, tag := t } := by
  rw [decodePair_eq, State.reghi, State.reglo, join_split]

/-- Settles O10: each meaning is `decodePair` with its TAG, and each word is `issue_of_bareOp`. -/
theorem decodersCopyRegpairToValue : Obligations.DecodersCopyRegpairToValue :=
  ⟨fun s => ⟨congrArg Host.Outcome.next (decodePair_eq_regpair .f32 s),
      congrArg Host.Outcome.next (decodePair_eq_regpair .i32 s),
      congrArg Host.Outcome.next (decodePair_eq_regpair .u32 s),
      fun _ hop => issue_of_bareOp (i := .decF32) s hop rfl,
      fun _ hop => issue_of_bareOp (i := .decI32) s hop rfl,
      fun _ hop => issue_of_bareOp (i := .decU32) s hop rfl⟩,
    rfl, rfl, rfl, rfl, rfl⟩

/-- Encoding and then decoding leaves VALUE as it was, whatever the two TAGs (R129). -/
theorem decodePair_encodeValue_value (t u : Tag) (s : State) : (decodePair u (encodeValue t s)).value = s.value := by
  rw [decodePair_eq_regpair, encodeValue_eq]

/-- Settles O11: VALUE goes to REGPAIR and comes back. -/
theorem codecRoundTripsBitForBit : Obligations.CodecRoundTripsBitForBit := fun s =>
  ⟨⟨_, _, rfl, rfl, decodePair_encodeValue_value .f32 .f32 s, rfl⟩,
    ⟨_, _, rfl, rfl, decodePair_encodeValue_value .i32 .i32 s, rfl⟩,
    ⟨_, _, rfl, rfl, decodePair_encodeValue_value .u32 .u32 s, rfl⟩⟩

/-! ### The three assemblies -/

/-- The shifts and ORs of mode 2 are the concatenation of mode 0 (R131). -/
theorem assembleUnsigned_eq_float (b0 b1 b2 b3 : Byte) :
    assembleUnsigned b0 b1 b2 b3 = assembleFloat b0 b1 b2 b3 := by
  rw [assembleFloat, BitVec.cast_eq, ← BitVec.setWidth_eq (b0 ++ b1 ++ b2 ++ b3),
    BitVec.setWidth_append_append_append_eq_shiftLeft_setWidth_or]
  rfl

/-- The join of two pairs of mode 1 is the concatenation of mode 0 (R131). -/
theorem assembleSigned_eq_float (b0 b1 b2 b3 : Byte) : assembleSigned b0 b1 b2 b3 = assembleFloat b0 b1 b2 b3 := by
  rw [assembleSigned, join_eq_append, half_eq_append, half_eq_append]
  exact BitVec.append_assoc'

/-- The pattern is the big-endian number of the four bytes (R130). -/
theorem assembleFloat_toNat (b0 b1 b2 b3 : Byte) : (assembleFloat b0 b1 b2 b3).toNat =
    b0.toNat * 2 ^ 24 + b1.toNat * 2 ^ 16 + b2.toNat * 2 ^ 8 + b3.toNat := by
  rw [assembleFloat, BitVec.toNat_cast, append_toNat, append_toNat, append_toNat]
  omega

/-- The TAG that a mode writes (R75). -/
def modeTag (m : BitVec 2) : Tag := if m = 0 then .f32 else if m = 1 then .i32 else .u32

/-- The three modes read one pattern; only TAG tells them apart (R130). -/
theorem assemble_eq (m : BitVec 2) (b0 b1 b2 b3 : Byte) :
    assemble m b0 b1 b2 b3 = (assembleFloat b0 b1 b2 b3, modeTag m) := by
  rw [assemble, modeTag, assembleSigned_eq_float, assembleUnsigned_eq_float]
  split_ifs <;> rfl

/-! ### DEC.PAY -/

/-- The pattern of value `k` of the payload (R131). -/
def payloadWord (k : Byte) (s : State) : Word :=
  assembleFloat (s.rxAt (3 + 4 * k.toNat)) (s.rxAt (4 + 4 * k.toNat)) (s.rxAt (5 + 4 * k.toNat))
    (s.rxAt (6 + 4 * k.toNat))

theorem payloadValue_eq (k : Byte) (m : BitVec 2) (s : State) : payloadValue k m s = (payloadWord k s, modeTag m) := by
  rw [payloadValue, assemble_eq, payloadWord]
  congr 3 <;> omega

/-- DEC.PAY of a value that is not available (R131). -/
theorem exec_decPay_of_not_decodable {k : Byte} {m : BitVec 2} {s : State} (hm : m ≠ 3) (h : ¬ decodable k s = true) :
    exec (.decPay k m) s = .next { s with result := .decode } := by
  simp only [exec, execDecPay, if_neg hm, if_neg h, State.setResult]

/-- DEC.PAY of a value that is available (R131). -/
theorem exec_decPay_of_decodable {k : Byte} {m : BitVec 2} {s : State} (hm : m ≠ 3) (h : decodable k s = true) :
    exec (.decPay k m) s = .next { s with
      tag := modeTag m, value := payloadWord k s, regpair := payloadWord k s, result := .success } := by
  simp only [exec, execDecPay, if_neg hm, if_pos h, storeDecoded_eq, payloadValue_eq]

/-- Settles O12: the assemblies are one concatenation, so DEC.PAY stores one pattern in both integer modes. -/
theorem integerReadPathsAgree : Obligations.IntegerReadPathsAgree := by
  refine ⟨fun b0 b1 b2 b3 => ?_, fun s k => ?_⟩
  · rw [assembleUnsigned_eq_float, assembleSigned_eq_float]
    exact ⟨rfl, rfl, assembleFloat_toNat b0 b1 b2 b3⟩
  · by_cases h : decodable k s = true
    · exact ⟨_, _, exec_decPay_of_decodable (by decide) h, exec_decPay_of_decodable (by decide) h, rfl,
        fun _ => ⟨rfl, rfl⟩⟩
    · exact ⟨_, _, exec_decPay_of_not_decodable (by decide) h, exec_decPay_of_not_decodable (by decide) h, rfl,
        ResultCode.noConfusion⟩

/-- While PV is set, the payload and its three header bytes lie in the response (R171). -/
theorem State.PayloadOk.paylen_add_three_le {s : State} (h : s.PayloadOk) (hpv : s.pv = true) :
    s.paylen.toNat + 3 ≤ s.rxlen.toNat := by
  obtain ⟨hrxlen, -, -, -, hpaylen, -⟩ := h hpv
  omega

/-- Settles O13: the meaning by whether the value is available, the word by `issue_of_op`, and the bound by the payload
part of the invariant. -/
theorem decPayDecodesOneValue : Obligations.DecPayDecodesOneValue := by
  refine ⟨fun _ _ => rfl, fun s k m hm hunavailable => ?_, fun s k m v hm hpv hcount hk hv => ?_, fun s _ hop => ?_,
    fun s k hinv hpv hk => ?_⟩
  · refine exec_decPay_of_not_decodable hm ?_
    rw [decodable_iff]
    rintro ⟨hpv, hcount, hk⟩
    rcases hunavailable with hclear | hlength
    · exact Bool.false_ne_true (hclear.symm.trans hpv)
    · omega
  · obtain rfl : payloadWord k s = v := BitVec.eq_of_toNat_eq ((assembleFloat_toNat _ _ _ _).trans hv.symm)
    exact exec_decPay_of_decodable hm ((decodable_iff k s).2 ⟨hpv, hcount, hk⟩)
  · exact issue_of_op (i := .decPay _ _) s hop ⟨rfl, rfl⟩ (and_congr_right' decide_eq_true_iff.symm)
  · obtain ⟨-, -, hpayload, -⟩ := hinv
    have hpaylen := hpayload.paylen_add_three_le hpv
    omega

/-- DEC.PAY does not look at RESULT, and writes it (R132). -/
theorem exec_decPay_withResult {m : BitVec 2} (hm : m ≠ 3) (k : Byte) (r : ResultCode) (s : State) :
    exec (.decPay k m) { s with result := r } = exec (.decPay k m) s := by
  have hsame : decodable k { s with result := r } = decodable k s := rfl
  by_cases h : decodable k s = true
  · rw [exec_decPay_of_decodable hm h, exec_decPay_of_decodable hm (hsame.trans h)]
    rfl
  · rw [exec_decPay_of_not_decodable hm h, exec_decPay_of_not_decodable hm (hsame ▸ h)]

/-- Settles O14: DECODE comes from the unavailable value alone, and no later DEC.PAY looks at RESULT. -/
theorem decodeOutcomeIsLocal : Obligations.DecodeOutcomeIsLocal := by
  intro s t k m hm hexec hresult
  by_cases h : decodable k s = true
  · cases (exec_decPay_of_decodable hm h).symm.trans hexec
    cases hresult
  · cases (exec_decPay_of_not_decodable hm h).symm.trans hexec
    exact ⟨rfl, rfl, fun k' m' hm' => exec_decPay_withResult hm' k' .decode s⟩

end Sys2Proof.Machine
end

section
/-! PROOFS. The frame builder (spec/43_frame_build.md): the bytes of a write request, what a build leaves in TXBUF
(R29), and BLD.RD and BLD.WR by meaning and by word (R151, R153). -/

namespace Sys2Proof.Machine

/-! ### The write request -/

/-- A field of the high half is a field of the word, 16 bits up (R120). -/
theorem extractLsb'_splitHi {start len : Nat} (h : start + len ≤ 16) (v : Word) :
    (splitHi v).extractLsb' start len = v.extractLsb' (16 + start) len := by
  ext i hi
  simp [splitHi, Nat.add_assoc, show start + i < 16 by omega]

/-- The two halves of a word on the wire are its four bytes from the highest (R54, R120). -/
theorem bigEndian_splitHi_append_splitLo (v : Word) : bigEndian (splitHi v) ++ bigEndian (splitLo v) =
    [v.extractLsb' 24 8, v.extractLsb' 16 8, v.extractLsb' 8 8, v.extractLsb' 0 8] := by
  simp only [bigEndian, hi8, lo8, splitLo, extractLsb'_splitHi, BitVec.extractLsb'_extractLsb'_of_le, List.cons_append,
    List.nil_append, Nat.reduceAdd, Nat.reduceLeDiff]

/-- The eleven bytes of a write request: REGPAIR goes out from its highest byte, and COUNT is not read (R153). -/
theorem writeRequest_eq (s : State) : writeRequest s =
    [s.slave, 0x10, s.addr.extractLsb' 8 8, s.addr.extractLsb' 0 8, 0x00, 0x02, 0x04,
      s.regpair.extractLsb' 24 8, s.regpair.extractLsb' 16 8, s.regpair.extractLsb' 8 8, s.regpair.extractLsb' 0 8] := by
  rw [writeRequest, State.reghi, State.reglo, List.append_assoc, bigEndian_splitHi_append_splitLo]
  rfl

/-! ### What a build leaves -/

/-- The first entries of TXBUF after a build are the frame and its CRC, low byte first (R151, R153). -/
theorem buildFrame_map_txAt (f : List Byte) (len : Len) (s : State) :
    (List.range (f.length + 2)).map (buildFrame f len s).txAt = f ++ crcBytes (crc16 f) := by
  rw [← State.txBytes_eq_map, buildFrame_txBytes]

/-- A build keeps TXBUF past the frame (R29). -/
theorem buildFrame_txAt_of_le {f : List Byte} {j : Nat} (len : Len) (s : State) (h : f.length + 2 ≤ j) :
    (buildFrame f len s).txAt j = s.txAt j := by
  rw [buildFrame_txAt, dif_neg (by simpa [crcBytes] using h)]

/-- A command that builds a frame, as a whole: the frame with its CRC in TXBUF and in CRC, its length in TXLEN, and
everything else kept (R29, R151, R153). -/
theorem exec_of_buildFrame {i : Instr} {f : List Byte} {len : Len} {s : State}
    (h : exec i s = .next (buildFrame f len s)) :
    ∃ (t : State) (c : Half), c = crc16 f ∧ exec i s = .next t ∧
      (List.range (f.length + 2)).map t.txAt = f ++ crcBytes c ∧ t.txlen = len ∧ t.crc = c ∧
      (∀ j, f.length + 2 ≤ j → t.txAt j = s.txAt j) ∧ { t with tx := s.tx, txlen := s.txlen, crc := s.crc } = s :=
  ⟨buildFrame f len s, crc16 f, rfl, h, buildFrame_map_txAt f len s, buildFrame_txlen f len s, buildFrame_crc f len s,
    fun _ => buildFrame_txAt_of_le len s, rfl⟩

/-! ### The builders -/

/-- Settles O15: the meaning is the build of the six bytes of `readRequest`, and the word is `issue_of_bareOp`. -/
theorem bldRdBuildsTheReadRequest : Obligations.BldRdBuildsTheReadRequest :=
  ⟨fun s => exec_of_buildFrame (f := readRequest s) rfl, fun s _ hop => issue_of_bareOp (i := .bldRd) s hop rfl⟩

/-- Settles O16: the meaning is the build of the eleven bytes of `writeRequest_eq`, and the word is `issue_of_bareOp`. -/
theorem bldWrBuildsTheWriteRequest : Obligations.BldWrBuildsTheWriteRequest := by
  refine ⟨fun s => ?_, fun s _ hop => issue_of_bareOp (i := .bldWr) s hop rfl⟩
  have hexec : exec .bldWr s = .next (buildFrame (writeRequest s) 13 s) := rfl
  rw [writeRequest_eq] at hexec
  exact exec_of_buildFrame hexec

end Sys2Proof.Machine
end

section
/-! PROOFS. The frame validator and parser (spec/44_frame_parse.md): the checks of R170 as an equation per case, frames
that end in their CRC (R101), and PRS.RD and PRS.WR as meanings, by word and by outcome (R171–R178). -/

namespace Sys2Proof.Machine

/-! ### The minimum length -/

theorem minLen_fcRead (s : State) :
    minLen Config.fcRead s = if s.count = 2 then s.params.rdMinLenSingle.bytes else 5 := rfl

theorem minLen_fcWrite (s : State) : minLen Config.fcWrite s = 6 := rfl

/-! ### PRS.RD and PRS.WR, whole -/

/-- The number of two wire bytes, high byte first (R54). -/
theorem half_eq_iff_toNat (hi lo : Byte) (v : Half) : half hi lo = v ↔ hi.toNat * 256 + lo.toNat = v.toNat := by
  rw [half_eq_append, ← BitVec.toNat_inj, append_toNat]
  rfl

/-- The checks as one chain, whatever is done with the outcome of each; the covered bytes are a map over their indexes
(R170). -/
theorem validate_elim {α : Type} (fc : Byte) (s : State) (pass : α) (fail : ResultCode → α) :
    (validate fc s).elim pass fail =
      if s.rxlen.toNat = 0 then fail .timeout
      else if s.rxlen.toNat < minLen fc s then fail .short
      else if ¬ (s.rxAt (s.rxlen.toNat - 2) = lo8 (crc16 ((List.range (s.rxlen.toNat - 2)).map s.rxAt)) ∧
          s.rxAt (s.rxlen.toNat - 1) = hi8 (crc16 ((List.range (s.rxlen.toNat - 2)).map s.rxAt))) then fail .crc
      else if s.rxAt 0 ≠ s.slave then fail .slave
      else if s.rxAt 1 ≠ fc then fail .func
      else pass := by
  simp only [validate, State.rxBytes_eq_map, ne_eq, not_and_or]
  split_ifs <;> rfl

/-- The echo check as one chain, whatever is done with the outcome of each part, over numbers (R173). -/
theorem checkEcho_elim {α : Type} (s : State) (pass : α) (fail : ResultCode → α) :
    (checkEcho s).elim pass fail =
      if (s.rxAt 2).toNat * 256 + (s.rxAt 3).toNat ≠ s.addr.toNat then fail .addr
      else if (s.rxAt 4).toNat * 256 + (s.rxAt 5).toNat ≠ 2 then fail .count
      else pass := by
  have hcount : Config.wrCount.toNat = 2 := rfl
  simp only [checkEcho, ne_eq, half_eq_iff_toNat, hcount]
  split_ifs <;> rfl

/-- PRS.RD clears the payload and writes the outcome of a failed check, or extracts the payload (R171). -/
theorem exec_prsRd_eq (s : State) :
    exec .prsRd s = .next ((validate Config.fcRead s).elim ((extractPayload s).setResult .success)
      (s.clearPayload.setResult ·)) := by
  simp only [exec, execPrsRd]
  cases validate Config.fcRead s <;> rfl

/-- PRS.WR clears the payload and writes the outcome of the common checks, that of the echo check if they pass, and
SUCCESS if both do (R173). -/
theorem exec_prsWr_eq (s : State) :
    exec .prsWr s = .next (s.clearPayload.setResult
      ((validate Config.fcWrite s).elim ((checkEcho s).elim .success id) id)) := by
  simp only [exec, execPrsWr]
  cases validate Config.fcWrite s with
  | some r => rfl
  | none => cases checkEcho s <;> rfl

/-- Settles O18: the meaning is the chain of `validate_elim` with step 7 at its end, and the word is
`issue_of_bareOp`. -/
theorem prsRdValidatesAReadResponse : Obligations.PrsRdValidatesAReadResponse := by
  refine ⟨fun s => ?_, fun s _ hop => issue_of_bareOp (i := .prsRd) s hop rfl⟩
  rw [exec_prsRd_eq, validate_elim]
  rfl

/-- Settles O19: the meaning is the chain of `validate_elim` and then that of `checkEcho_elim`, and the word is
`issue_of_bareOp`. -/
theorem prsWrValidatesAWriteResponse : Obligations.PrsWrValidatesAWriteResponse := by
  refine ⟨fun s => ?_, fun s _ hop => issue_of_bareOp (i := .prsWr) s hop rfl⟩
  rw [exec_prsWr_eq, validate_elim, checkEcho_elim]
  rfl

/-! ### The outcome of a parser -/

/-- The outcome of PRS.RD is that of the common checks, or SUCCESS (R171). -/
theorem exec_prsRd_result (s : State) :
    ∃ t, exec .prsRd s = .next t ∧ t.result = (validate Config.fcRead s).getD .success := by
  refine ⟨_, exec_prsRd_eq s, ?_⟩
  cases validate Config.fcRead s <;> rfl

/-- The outcome of PRS.WR is that of the common checks, else that of the echo check, or SUCCESS (R173). -/
theorem exec_prsWr_result (s : State) :
    ∃ t, exec .prsWr s = .next t ∧ t.result = (validate Config.fcWrite s).getD ((checkEcho s).getD .success) := by
  refine ⟨_, exec_prsWr_eq s, ?_⟩
  cases validate Config.fcWrite s with
  | some r => rfl
  | none => cases checkEcho s <;> rfl

/-- The outcome of the first step whose failure condition holds (R174). -/
def firstFailing (steps : List (Bool × ResultCode)) : Option ResultCode := (steps.find? (·.1)).map (·.2)

@[simp] theorem firstFailing_nil : firstFailing [] = none := rfl

@[simp] theorem firstFailing_cons (b : Bool) (r : ResultCode) (steps : List (Bool × ResultCode)) :
    firstFailing ((b, r) :: steps) = if b then some r else firstFailing steps := by
  cases b <;> rfl

theorem firstFailing_append (as bs : List (Bool × ResultCode)) :
    firstFailing (as ++ bs) = (firstFailing as).or (firstFailing bs) := by
  rw [firstFailing, List.find?_append, Option.map_or]
  rfl

/-- Steps 1 to 5 in order (R170). -/
def commonSteps (minimum : Nat) (fc : Byte) (s : State) : List (Bool × ResultCode) :=
  [(s.rxlen.toNat == 0, .timeout), (decide (s.rxlen.toNat < minimum), .short),
    (decide (¬ [s.rxAt (s.rxlen.toNat - 2), s.rxAt (s.rxlen.toNat - 1)] =
      crcBytes (crc16 ((List.range (s.rxlen.toNat - 2)).map s.rxAt))), .crc),
    (s.rxAt 0 != s.slave, .slave), (s.rxAt 1 != fc, .func)]

/-- Step 6 in its two parts (R173). -/
def echoSteps (s : State) : List (Bool × ResultCode) :=
  [(half (s.rxAt 2) (s.rxAt 3) != s.addr, .addr), (half (s.rxAt 4) (s.rxAt 5) != 0x0002, .count)]

theorem validate_eq_firstFailing (fc : Byte) (s : State) :
    validate fc s = firstFailing (commonSteps (minLen fc s) fc s) := by
  simp only [validate, commonSteps, crcBytes, State.rxBytes_eq_map, firstFailing_cons, firstFailing_nil, beq_iff_eq,
    bne_iff_ne, decide_eq_true_eq, List.cons.injEq, and_true, not_and_or]

theorem checkEcho_eq_firstFailing (s : State) : checkEcho s = firstFailing (echoSteps s) := by
  simp only [checkEcho, echoSteps, firstFailing_cons, firstFailing_nil, bne_iff_ne]
  rfl

/-- Settles O20: the common checks and the echo check are each the first failing step of their lists. -/
theorem parserOutcomeIsFirstFailingStep : Obligations.ParserOutcomeIsFirstFailingStep := by
  intro s
  have hrd := exec_prsRd_result s
  have hwr := exec_prsWr_result s
  rw [validate_eq_firstFailing] at hrd
  rw [validate_eq_firstFailing, checkEcho_eq_firstFailing, ← Option.getD_or, ← firstFailing_append] at hwr
  exact ⟨hrd, hwr⟩

/-! ### Frames that end in their CRC -/

/-- A frame of two bytes or more ends in its CRC when its last two bytes are the CRC of the rest (R101). -/
theorem endsInItsCrc_append_pair (g : List Byte) (a b : Byte) :
    endsInItsCrc (g ++ [a, b]) ↔ [a, b] = crcBytes (crc16 g) := by
  constructor
  · rintro ⟨g', h⟩
    obtain ⟨rfl, hlast⟩ := List.append_inj' h rfl
    exact hlast
  · intro h
    exact ⟨g, by rw [h]⟩

/-- The CRC of a sequence and its own low byte is its high byte (R178). -/
theorem crc16_append_lo8 (g : List Byte) : crc16 (g ++ [lo8 (crc16 g)]) = (hi8 (crc16 g)).setWidth 16 := by
  rw [crc16_append, crcFrom_cons, crcFrom_nil, crcStep_lo8]

/-- A byte as a CRC on the wire is the byte and 0x00. -/
theorem crcBytes_setWidth (b : Byte) : crcBytes (b.setWidth 16) = [b, 0] := by
  have hlo : lo8 (b.setWidth 16) = b := by ext i hi; simp [lo8, hi, show i < 16 by omega]
  have hhi : hi8 (b.setWidth 16) = 0 := by ext i hi; simp [hi8]
  rw [crcBytes, hlo, hhi]

/-- A frame that ends in its CRC, followed by one byte, ends in its CRC again when that byte is 0x00 (R178). -/
theorem endsInItsCrc_append_singleton {f : List Byte} (h : endsInItsCrc f) (b : Byte) :
    endsInItsCrc (f ++ [b]) ↔ b = 0 := by
  obtain ⟨g, rfl⟩ := h
  have hsplit : g ++ crcBytes (crc16 g) ++ [b] = g ++ [lo8 (crc16 g)] ++ [hi8 (crc16 g), b] := by simp [crcBytes]
  rw [hsplit, endsInItsCrc_append_pair, crc16_append_lo8, crcBytes_setWidth]
  simp

/-- Changing one byte of a sequence changes its CRC, since each step loses nothing. -/
theorem crc16_set_ne {f : List Byte} {i : Nat} {b : Byte} (hi : i < f.length) (hb : b ≠ f[i]) :
    crc16 (f.set i b) ≠ crc16 f := by
  intro h
  have hf : f = f.take i ++ f[i] :: f.drop (i + 1) := by simp
  rw [List.set_eq_take_append_cons_drop, if_pos hi] at h
  conv at h => rhs; rw [hf]
  rw [crc16_append, crc16_append, crcFrom_cons, crcFrom_cons] at h
  exact hb (crcStep_injective_right _ _ _ (crcFrom_injective _ _ _ h))

/-- A frame that ends in its CRC has CRC 0 (R104). -/
theorem crc16_eq_zero_of_endsInItsCrc {f : List Byte} (h : endsInItsCrc f) : crc16 f = 0 := by
  obtain ⟨g, rfl⟩ := h
  exact crc16_append_crcBytes g

/-- A frame that ends in its CRC no longer does after one byte of it has been changed (R175). -/
theorem not_endsInItsCrc_set {f : List Byte} {i : Nat} {b : Byte} (h : endsInItsCrc f) (hi : i < f.length)
    (hb : b ≠ f[i]) : ¬ endsInItsCrc (f.set i b) := fun hset =>
  crc16_set_ne hi hb ((crc16_eq_zero_of_endsInItsCrc hset).trans (crc16_eq_zero_of_endsInItsCrc h).symm)

/-- Flipping a bit changes a byte. -/
theorem xor_bit_ne {x : Byte} {j : Nat} (hj : j < 8) : x ^^^ (1#8 <<< j) ≠ x := by
  intro h
  have hbit := congrArg (·.getLsbD j) h
  simp [hj] at hbit

/-! ### The checks, an equation per case -/

/-- A response of two bytes or more ends in its CRC when the check of step 3 passes (R170). -/
theorem State.endsInItsCrc_rxBytes_iff (s : State) {n : Nat} (hn : 2 ≤ n) :
    endsInItsCrc (s.rxBytes 0 n) ↔
      s.rxAt (n - 2) = lo8 (crc16 (s.rxBytes 0 (n - 2))) ∧ s.rxAt (n - 1) = hi8 (crc16 (s.rxBytes 0 (n - 2))) := by
  obtain ⟨n, rfl⟩ := Nat.exists_eq_add_of_le' hn
  rw [State.rxBytes_append]
  simp [State.rxBytes, endsInItsCrc_append_pair, crcBytes]

/-- A response below the minimum fails step 2 (R170). -/
theorem validate_of_lt_minLen {fc : Byte} {s : State} (h0 : s.rxlen.toNat ≠ 0) (h : s.rxlen.toNat < minLen fc s) :
    validate fc s = some .short := by
  simp only [validate, if_neg h0, if_pos h]

section
variable {fc : Byte} {s : State} (hlen : minLen fc s ≤ s.rxlen.toNat)
include hlen

/-- A response that is long enough and does not end in its CRC fails step 3 (R170). -/
theorem validate_of_not_endsInItsCrc (hcrc : ¬ endsInItsCrc (s.rxBytes 0 s.rxlen.toNat)) :
    validate fc s = some .crc := by
  have h5 := five_le_minLen fc s
  rw [s.endsInItsCrc_rxBytes_iff (by omega), not_and_or] at hcrc
  simp only [validate, if_neg (show ¬ s.rxlen.toNat = 0 by omega), if_neg (Nat.not_lt.2 hlen), ne_eq, if_pos hcrc]

/-- A response that is long enough and ends in its CRC comes to steps 4 and 5 (R170). -/
theorem validate_of_endsInItsCrc (hcrc : endsInItsCrc (s.rxBytes 0 s.rxlen.toNat)) :
    validate fc s = if s.rxAt 0 ≠ s.slave then some .slave else if s.rxAt 1 ≠ fc then some .func else none := by
  have h5 := five_le_minLen fc s
  obtain ⟨hlo, hhi⟩ := (s.endsInItsCrc_rxBytes_iff (by omega)).1 hcrc
  simp only [validate, if_neg (show ¬ s.rxlen.toNat = 0 by omega), if_neg (Nat.not_lt.2 hlen), hlo, hhi, ne_eq,
    not_true_eq_false, or_self, if_false]

/-- Once a response is long enough, CRC is its outcome exactly when it does not end in its CRC (R170). -/
theorem validate_eq_crc_iff : validate fc s = some .crc ↔ ¬ endsInItsCrc (s.rxBytes 0 s.rxlen.toNat) := by
  refine ⟨fun h hcrc => ?_, validate_of_not_endsInItsCrc hlen⟩
  rw [validate_of_endsInItsCrc hlen hcrc] at h
  split_ifs at h <;> cases h

end

/-- The checks stop before step 4, or the response is long enough and ends in its CRC (R170). -/
theorem validate_stops_or_endsInItsCrc (fc : Byte) (s : State) :
    (∃ r ∈ [ResultCode.timeout, .short, .crc], validate fc s = some r) ∨
      minLen fc s ≤ s.rxlen.toNat ∧ endsInItsCrc (s.rxBytes 0 s.rxlen.toNat) := by
  by_cases h0 : s.rxlen.toNat = 0
  · exact .inl ⟨_, by simp, validate_of_rxlen_zero fc h0⟩
  by_cases hlen : s.rxlen.toNat < minLen fc s
  · exact .inl ⟨_, by simp, validate_of_lt_minLen h0 hlen⟩
  by_cases hcrc : endsInItsCrc (s.rxBytes 0 s.rxlen.toNat)
  · exact .inr ⟨Nat.not_lt.1 hlen, hcrc⟩
  · exact .inl ⟨_, by simp, validate_of_not_endsInItsCrc (Nat.not_lt.1 hlen) hcrc⟩

/-- A failed check is the outcome of PRS.RD (R171). -/
theorem exec_prsRd_result_of_validate_some {s : State} {r : ResultCode} (h : validate Config.fcRead s = some r) :
    ∃ t, exec .prsRd s = .next t ∧ t.result = r := ⟨_, exec_prsRd_of_validate_some h, rfl⟩

/-- A failed common check is the outcome of PRS.WR (R173). -/
theorem exec_prsWr_result_of_validate_some {s : State} {r : ResultCode} (h : validate Config.fcWrite s = some r) :
    ∃ t, exec .prsWr s = .next t ∧ t.result = r := ⟨_, exec_prsWr_of_validate_some h, rfl⟩

/-! ### A flipped bit -/

/-- Writing one byte of RXBUF sets that byte of a slice. -/
theorem State.rxBytes_write (s : State) (i n : Nat) (b : Byte) :
    (s.setRx (s.rx.write i b)).rxBytes 0 n = (s.rxBytes 0 n).set i b := by
  apply List.ext_getElem
  · simp
  · intro j h1 h2
    simp only [State.rxBytes_getElem, State.rxAt_write, List.getElem_set, Nat.zero_add, eq_comm]

/-- A response that comes to step 4 stops at step 3 once a bit of it is flipped (R175). -/
theorem validate_flipped {fc : Byte} {s : State} {i j : Nat} (hlen : minLen fc s ≤ s.rxlen.toNat)
    (hcrc : endsInItsCrc (s.rxBytes 0 s.rxlen.toNat)) (hi : i < s.rxlen.toNat) (hj : j < 8) :
    validate fc (s.setRx (s.rx.write i (s.rxAt i ^^^ (1#8 <<< j)))) = some .crc := by
  refine validate_of_not_endsInItsCrc hlen ?_
  rw [State.setRx_rxlen, State.rxBytes_write]
  refine not_endsInItsCrc_set hcrc (by simpa using hi) ?_
  rw [State.rxBytes_getElem, Nat.zero_add]
  exact xor_bit_ne hj

/-- Settles O21: an outcome past step 3 says that the response ends in its CRC, and with a bit flipped it does not. -/
theorem singleBitFlipGivesCrc : Obligations.SingleBitFlipGivesCrc := by
  intro s t i j hi hj
  refine ⟨fun hexec hresult => ?_, fun hexec hresult => ?_⟩
  · rcases validate_stops_or_endsInItsCrc Config.fcRead s with ⟨r, hr, hv⟩ | ⟨hlen, hcrc⟩
    · cases (exec_prsRd_of_validate_some hv).symm.trans hexec
      simp only [State.setResult_result] at hresult
      rcases hresult with rfl | rfl | rfl <;> simp at hr
    · exact exec_prsRd_result_of_validate_some (validate_flipped hlen hcrc hi hj)
  · rcases validate_stops_or_endsInItsCrc Config.fcWrite s with ⟨r, hr, hv⟩ | ⟨hlen, hcrc⟩
    · cases (exec_prsWr_of_validate_some hv).symm.trans hexec
      simp only [State.setResult_result] at hresult
      rcases hresult with rfl | rfl | rfl | rfl | rfl <;> simp at hr
    · exact exec_prsWr_result_of_validate_some (validate_flipped hlen hcrc hi hj)

/-! ### Exception responses -/

/-- A function byte with bit 7 set is not that of a read response (R176). -/
theorem ne_fcRead_of_bit7 {b : Byte} (h : b.getLsbD 7 = true) : b ≠ Config.fcRead := by
  rintro rfl
  exact absurd h (by decide)

/-- Settles O22: five bytes are below 6 and below 9; with a minimum of 5 the checks come to the function code. -/
theorem exceptionResponsesUseOrdinaryChecks : Obligations.ExceptionResponsesUseOrdinaryChecks := by
  intro s hrxlen hslave hbit hcrc
  have hlen : s.rxlen.toNat = 5 := by rw [hrxlen]; rfl
  refine ⟨exec_prsWr_result_of_validate_some (validate_of_lt_minLen ?_ ?_), fun hcount hnine =>
    exec_prsRd_result_of_validate_some (validate_of_lt_minLen ?_ ?_), fun hcount =>
    exec_prsRd_result_of_validate_some ?_⟩
  · omega
  · rw [minLen_fcWrite]; omega
  · omega
  · rw [minLen_fcRead, if_pos hcount, hnine, hlen]; decide
  · rw [← hlen] at hcrc
    rw [validate_of_endsInItsCrc (by rw [minLen_fcRead, if_neg hcount, hlen]) hcrc, if_neg (not_not.2 hslave),
      if_pos (ne_fcRead_of_bit7 hbit)]

/-! ### What a parser reads -/

/-- A response that passes the common checks has the minimum length (R170). -/
theorem minLen_le_of_validate_eq_none {fc : Byte} {s : State} (h : validate fc s = none) :
    minLen fc s ≤ s.rxlen.toNat := by
  rcases validate_stops_or_endsInItsCrc fc s with ⟨r, -, hr⟩ | ⟨hlen, -⟩
  · cases hr.symm.trans h
  · exact hlen

section
variable {s : State} {m : Memory} (h : ∀ j, j < s.rxlen.toNat → (s.setRx m).rxAt j = s.rxAt j)
include h

/-- The common checks read the response only (R177). -/
theorem validate_setRx (fc : Byte) : validate fc (s.setRx m) = validate fc s := by
  by_cases h0 : s.rxlen.toNat = 0
  · rw [validate_of_rxlen_zero fc h0, validate_of_rxlen_zero (s := s.setRx m) fc h0]
  by_cases hlen : s.rxlen.toNat < minLen fc s
  · rw [validate_of_lt_minLen h0 hlen, validate_of_lt_minLen (s := s.setRx m) h0 hlen]
  have h5 := five_le_minLen fc s
  have hmin : minLen fc (s.setRx m) = minLen fc s := rfl
  have hbytes : (s.setRx m).rxBytes 0 (s.rxlen.toNat - 2) = s.rxBytes 0 (s.rxlen.toNat - 2) :=
    State.rxBytes_congr fun j _ hj => h j (by omega)
  simp only [validate, State.setRx_rxlen, State.setRx_slave, hmin, hbytes, h (s.rxlen.toNat - 2) (by omega),
    h (s.rxlen.toNat - 1) (by omega), h 0 (by omega), h 1 (by omega)]

/-- The echo check reads the first six bytes (R177). -/
theorem checkEcho_setRx (h6 : 6 ≤ s.rxlen.toNat) : checkEcho (s.setRx m) = checkEcho s := by
  simp only [checkEcho, State.setRx_addr, h 2 (by omega), h 3 (by omega), h 4 (by omega), h 5 (by omega)]

/-- Step 7 reads RX[2] (R177). -/
theorem extractPayload_setRx (h3 : 3 ≤ s.rxlen.toNat) :
    extractPayload (s.setRx m) = (extractPayload s).setRx m := by
  simp only [extractPayload, State.setRx_rxlen, h 2 (by omega)]
  rfl

/-- PRS.RD reads the response only (R177). -/
theorem exec_prsRd_setRx : ∃ t, exec .prsRd s = .next t ∧ exec .prsRd (s.setRx m) = .next (t.setRx m) := by
  refine ⟨_, exec_prsRd_eq s, ?_⟩
  rw [exec_prsRd_eq, validate_setRx h]
  cases hv : validate Config.fcRead s with
  | some r => rfl
  | none =>
    have h5 := (five_le_minLen _ s).trans (minLen_le_of_validate_eq_none hv)
    rw [Option.elim_none, Option.elim_none, extractPayload_setRx h (by omega)]
    rfl

/-- PRS.WR reads the response only (R177). -/
theorem exec_prsWr_setRx : ∃ t, exec .prsWr s = .next t ∧ exec .prsWr (s.setRx m) = .next (t.setRx m) := by
  refine ⟨_, exec_prsWr_eq s, ?_⟩
  rw [exec_prsWr_eq, validate_setRx h]
  cases hv : validate Config.fcWrite s with
  | some r => rfl
  | none =>
    rw [Option.elim_none, Option.elim_none, checkEcho_setRx h (minLen_le_of_validate_eq_none hv)]
    rfl

end

/-- Settles O23: a parser reads the response only; a short response stops at step 2, and a wrong slave is found at step
4, after the CRC. -/
theorem parsersReadOnlyTheResponse : Obligations.ParsersReadOnlyTheResponse := by
  refine ⟨?_, fun s h1 => ⟨fun hlen => ?_, fun hlen => ?_⟩, fun s hcrc hslave => ⟨fun hlen => ?_, fun hlen => ?_⟩⟩
  · rintro s i m (rfl | rfl) h
    · exact exec_prsRd_setRx h
    · exact exec_prsWr_setRx h
  · exact exec_prsRd_result_of_validate_some (validate_of_lt_minLen (by omega) hlen)
  · exact exec_prsWr_result_of_validate_some (validate_of_lt_minLen (by omega) hlen)
  · exact exec_prsRd_result_of_validate_some
      ((validate_of_endsInItsCrc (fc := Config.fcRead) hlen hcrc).trans (if_pos hslave))
  · exact exec_prsWr_result_of_validate_some
      ((validate_of_endsInItsCrc (fc := Config.fcWrite) hlen hcrc).trans (if_pos hslave))

/-! ### A trailing byte -/

/-- PRS.RD gives CRC when the common checks do (R171). -/
theorem exec_prsRd_result_crc_iff (s : State) :
    ∃ t, exec .prsRd s = .next t ∧ (t.result = .crc ↔ validate Config.fcRead s = some .crc) := by
  obtain ⟨t, hexec, hresult⟩ := exec_prsRd_result s
  refine ⟨t, hexec, ?_⟩
  rw [hresult]
  cases validate Config.fcRead s <;> simp

/-- PRS.WR gives CRC when the common checks do: the echo check never does (R173). -/
theorem exec_prsWr_result_crc_iff (s : State) :
    ∃ t, exec .prsWr s = .next t ∧ (t.result = .crc ↔ validate Config.fcWrite s = some .crc) := by
  obtain ⟨t, hexec, hresult⟩ := exec_prsWr_result s
  refine ⟨t, hexec, ?_⟩
  rw [hresult]
  cases validate Config.fcWrite s with
  | some r => simp
  | none => rcases checkEcho_cases s with ⟨-, h⟩ | ⟨-, -, h⟩ | ⟨-, -, h⟩ <;> simp [h]

/-- Step 3 rejects a frame that ends in its CRC and one more byte unless that byte is 0x00 (R178). -/
theorem validate_eq_crc_iff_trailing {fc : Byte} {s : State} {L : Nat} (hL : s.rxlen.toNat = L + 1)
    (hcrc : endsInItsCrc (s.rxBytes 0 L)) (hlen : minLen fc s ≤ L + 1) :
    validate fc s = some .crc ↔ s.rxAt L ≠ 0x00 := by
  have hsplit : s.rxBytes 0 (L + 1) = s.rxBytes 0 L ++ [s.rxAt L] := by
    rw [State.rxBytes_append, Nat.zero_add]; rfl
  rw [validate_eq_crc_iff (hL ▸ hlen), hL, hsplit, endsInItsCrc_append_singleton hcrc]

/-- Settles O24: the step is `crcStep_lo8`, and the trailing byte is `endsInItsCrc_append_singleton`. -/
theorem oneTrailingZeroIsAccepted : Obligations.OneTrailingZeroIsAccepted := by
  refine ⟨crcStep_lo8, crc16_append_lo8, fun s L hL hcrc => ⟨fun hlen => ?_, fun hlen => ?_⟩⟩
  · rw [← validate_eq_crc_iff_trailing (fc := Config.fcRead) hL hcrc hlen]
    exact exec_prsRd_result_crc_iff s
  · rw [← validate_eq_crc_iff_trailing (fc := Config.fcWrite) hL hcrc hlen]
    exact exec_prsWr_result_crc_iff s

end Sys2Proof.Machine
end

section
/-! PROOFS. Reset and hazards (spec/70_reset_and_hazards.md): loading a response ends the payload (R244), and a buffer
byte keeps its draw until it is written (R241). -/

namespace Sys2Proof.Machine

/-! ### Loading a response -/

/-- With PV clear no value of the payload is available (R131). -/
theorem exec_decPay_of_pv_clear {m : BitVec 2} {s : State} (hm : m ≠ 3) (hpv : s.pv = false) (k : Byte) :
    exec (.decPay k m) s = .next { s with result := .decode } := by
  refine exec_decPay_of_not_decodable hm fun hdecodable => ?_
  obtain ⟨hset, -, -⟩ := (decodable_iff k s).1 hdecodable
  exact Bool.false_ne_true (hpv.symm.trans hset)

/-- The aligned offsets 0x800–0xBFC are those of the entries of RXBUF (R21). -/
theorem Target.exists_rxbuf_offset_eq {off : Nat} (hlo : 0x800 ≤ off) (hhi : off < 0xC00) (h4 : off % 4 = 0) :
    ∃ i : Fin 256, (Target.rxbuf i).offset = off :=
  ⟨⟨(off - 0x800) / 4, by omega⟩, by simp only [Target.offset_rxbuf]; omega⟩

/-- Settles O37: the write is `writeRxlen` or `writeRxByte`, each of which ends by clearing PV. -/
theorem loadingAResponseEndsThePayload : Obligations.LoadingAResponseEndsThePayload := by
  intro s t off w rest hr hoff hstep
  have hpv : t.pv = false := by
    rcases hoff with rfl | ⟨hlo, hhi, h4⟩
    · cases (step_write s .rxlen w rest hr).symm.trans hstep
      rfl
    · obtain ⟨i, rfl⟩ := Target.exists_rxbuf_offset_eq hlo hhi h4
      cases (step_write s (.rxbuf i) w rest hr).symm.trans hstep
      rfl
  exact ⟨hpv, fun k m hm => exec_decPay_of_pv_clear hm hpv k⟩

/-! ### Written bytes stay written -/

/-- Every entry that is written in `m` is written in `n`, whatever byte it holds there. -/
def Memory.StaysWritten (m n : Memory) : Prop := ∀ i, n.byte? i = none → m.byte? i = none

theorem Memory.staysWritten_refl (m : Memory) : m.StaysWritten m := fun _ h => h

/-- A write leaves no entry unwritten that was written. -/
theorem Memory.staysWritten_write (m : Memory) (i : Nat) (b : Byte) : m.StaysWritten (m.write i b) := by
  intro j h
  rw [Memory.byte?_write] at h
  split at h
  · cases h
  · exact h

/-- Writing a byte sequence leaves no entry unwritten that was written. -/
theorem Memory.staysWritten_writeBytes (bs : List Byte) (m : Memory) (i : Nat) :
    m.StaysWritten (m.writeBytes i bs) := by
  induction bs generalizing m i with
  | nil => exact m.staysWritten_refl
  | cons b bs ih => exact fun j h => m.staysWritten_write i b j (ih (m.write i b) (i + 1) j h)

/-- No entry of either buffer becomes unwritten from `s` to `t`. -/
def State.KeepsWritten (s t : State) : Prop := s.tx.StaysWritten t.tx ∧ s.rx.StaysWritten t.rx

/-- A change of the state that leaves both buffers alone un-writes nothing. -/
theorem State.KeepsWritten.of_buffers_eq {s t : State} (htx : t.tx = s.tx) (hrx : t.rx = s.rx) : s.KeepsWritten t := by
  rw [State.KeepsWritten, htx, hrx]
  exact ⟨s.tx.staysWritten_refl, s.rx.staysWritten_refl⟩

/-- No command un-writes a buffer entry: the builders write into TXBUF, and the others leave both buffers alone. -/
theorem exec_keepsWritten {i : Instr} {s t : State} (h : exec i s = .next t) : s.KeepsWritten t := by
  rcases exec_cases i s with he | ⟨_, he⟩ | ⟨_, he⟩ | ⟨_, _, he⟩ | he | ⟨_, _, _, _, -, -, he⟩ | ⟨-, he⟩ | ⟨-, he⟩ |
    ⟨_, he⟩ | ⟨-, he⟩ <;>
  · cases he.symm.trans h
    simp only [State.KeepsWritten, buildFrame_eq, State.setResult_tx, State.setResult_rx, State.clearPayload_eq,
      extractPayload_eq, Memory.staysWritten_writeBytes, Memory.staysWritten_refl, and_self]

/-- No issue of a word un-writes a buffer entry: it performs a command or raises ILLEGAL. -/
theorem issue_keepsWritten {w : Word} {s t : State} (h : issue w s = .next t) : s.KeepsWritten t := by
  rcases issue_cases w s with ⟨i, -, hi⟩ | ⟨e, -, he⟩
  · exact exec_keepsWritten (hi.symm.trans h)
  · cases he.symm.trans h
    exact .of_buffers_eq rfl rfl

/-- No host write un-writes a buffer entry: a write to CMD issues a command, one to RXBUF writes its entry, and any other
leaves both buffers alone (R51). -/
theorem memWrite_keepsWritten {r : Target} {w : Word} {s t : State} (h : memWrite r w s = .next t) :
    s.KeepsWritten t := by
  cases r with
  | cmd => exact issue_keepsWritten h
  | rxbuf i =>
    cases h
    exact ⟨s.tx.staysWritten_refl, s.rx.staysWritten_write i (w.setWidth 8)⟩
  | _ =>
    cases h
    exact .of_buffers_eq rfl rfl

/-- No legal access un-writes a buffer entry. -/
theorem legalAccess_keepsWritten {r : Target} {k : AccessKind} {s t : State} (h : legalAccess r k s = .next t) :
    s.KeepsWritten t := by
  cases k with
  | read =>
    cases h
    exact .of_buffers_eq rfl rfl
  | write w => exact memWrite_keepsWritten h

/-- No host access un-writes a buffer entry, whatever it reaches. -/
theorem hostAccess_keepsWritten {a : Access} {s t : State} (h : hostAccess a s = .next t) : s.KeepsWritten t := by
  rcases hostAccess_cases a s with ⟨-, ha⟩ | ⟨-, -, ha⟩ | ⟨-, -, ha⟩ | ⟨-, r, -, ha⟩
  · cases ha.symm.trans h
    exact .of_buffers_eq rfl rfl
  · cases ha.symm.trans h
    exact .of_buffers_eq rfl rfl
  · cases ha.symm.trans h
    cases a.kind <;> exact .of_buffers_eq rfl rfl
  · exact legalAccess_keepsWritten (ha.symm.trans h)

/-- A change of the reset line un-writes a buffer entry only as a release, which starts a new draw (R240, R241). -/
theorem driveReset_keepsWritten {b : Bool} {s : State} (hepoch : (s.driveReset b).drawEpoch = s.drawEpoch) :
    s.KeepsWritten (s.driveReset b) := by
  rcases driveReset_cases b s with ⟨-, hd⟩ | ⟨-, -, hd⟩ | ⟨-, -, hd⟩
  · rw [hd]
    exact .of_buffers_eq rfl rfl
  · rw [hd, State.release_drawEpoch] at hepoch
    exact absurd hepoch (Nat.succ_ne_self _)
  · rw [hd]
    exact .of_buffers_eq rfl rfl

/-- No step but a release of reset un-writes a buffer entry (R241). -/
theorem step_keepsWritten {s t : State} (h : step s = .next t) (hepoch : t.drawEpoch = s.drawEpoch) :
    s.KeepsWritten t := by
  rcases step_cases s with ⟨-, hs⟩ | ⟨e, rest, -, hs⟩
  · cases hs.symm.trans h
    exact .of_buffers_eq rfl rfl
  · have hperform : perform e (s.setPending rest) = .next t := hs.symm.trans h
    cases e with
    | access a => exact hostAccess_keepsWritten (s := s.setPending rest) hperform
    | resetLine b =>
      cases hperform
      exact driveReset_keepsWritten (s := s.setPending rest) hepoch

/-- Settles O47: an entry that is unwritten after the step was unwritten before it, and both states draw alike. -/
theorem unwrittenBytesKeepTheirDraw : Obligations.UnwrittenBytesKeepTheirDraw := by
  intro s t i hstep hepoch
  obtain ⟨htx, hrx⟩ := step_keepsWritten hstep hepoch
  refine ⟨fun hi => ?_, fun hi => ?_⟩
  · have hdraw : t.txAt i = Config.bufferDraw .tx s.drawEpoch i := hepoch ▸ State.txAt_of_unwritten hi
    exact ⟨hdraw.trans (State.txAt_of_unwritten (htx i hi)).symm, hdraw⟩
  · have hdraw : t.rxAt i = Config.bufferDraw .rx s.drawEpoch i := hepoch ▸ State.rxAt_of_unwritten hi
    exact ⟨hdraw.trans (State.rxAt_of_unwritten (hrx i hi)).symm, hdraw⟩

end Sys2Proof.Machine
end

section
/-! PROOFS. Decode and encode agree (spec/30_encoding.md): what the encoder writes the decoder reads back, and a command
has no word but its encoding (R72–R76). -/

namespace Sys2Proof

/-- Decoding the encoding of a well-formed command gives it back. -/
theorem decode_encode {i : Instr} (h : i.WellFormed) : decode (encode i) = .ok i := by
  cases i with
  | crcInit => exact Laws.RoundTrip.crcInit h
  | crcByte b => exact Laws.RoundTrip.crcByte b h
  | crcTx n => exact Laws.RoundTrip.crcTx n h
  | crcRx n => exact Laws.RoundTrip.crcRx n h
  | encF32 => exact Laws.RoundTrip.encF32 h
  | encI32 => exact Laws.RoundTrip.encI32 h
  | encU32 => exact Laws.RoundTrip.encU32 h
  | decF32 => exact Laws.RoundTrip.decF32 h
  | decI32 => exact Laws.RoundTrip.decI32 h
  | decU32 => exact Laws.RoundTrip.decU32 h
  | decPay k m => exact Laws.RoundTrip.decPay k m h
  | bldRd => exact Laws.RoundTrip.bldRd h
  | bldWr => exact Laws.RoundTrip.bldWr h
  | prsRd => exact Laws.RoundTrip.prsRd h
  | prsWr => exact Laws.RoundTrip.prsWr h

/-- Two words whose reserved bits are 0 in a command's format and whose operand fields are the command's agree above the
OP byte: the format's fields and reserved bits cover it (R72). -/
theorem Instr.extractLsb'_eq_of_hasOperandsOf {i : Instr} {x y : Word} (hx : i.format.ReservedZero x)
    (hy : i.format.ReservedZero y) (ox : i.HasOperandsOf x) (oy : i.HasOperandsOf y) :
    x.extractLsb' 8 24 = y.extractLsb' 8 24 := by
  have hcount {n : Len} (hx : Format.n.ReservedZero x) (hy : Format.n.ReservedZero y) (ox : n = nField x)
      (oy : n = nField y) : x.extractLsb' 8 24 = y.extractLsb' 8 24 := by
    rw [extractLsb'_add_eq_iff x y 8 8 16, extractLsb'_add_eq_iff x y 16 9 7]
    exact ⟨hx.2.trans hy.2.symm, ox.symm.trans oy, hx.1.trans hy.1.symm⟩
  cases i with
  | crcByte b =>
    rw [extractLsb'_add_eq_iff x y 8 8 16]
    exact ⟨ox.symm.trans oy, hx.trans hy.symm⟩
  | crcTx n => exact hcount hx hy ox oy
  | crcRx n => exact hcount hx hy ox oy
  | decPay k m =>
    rw [extractLsb'_add_eq_iff x y 8 8 16, extractLsb'_add_eq_iff x y 16 2 14]
    exact ⟨ox.1.symm.trans oy.1, ox.2.symm.trans oy.2, hx.trans hy.symm⟩
  | _ => exact hx.trans hy.symm

/-- No two words decode to one command. -/
theorem eq_of_decode_eq_ok {x y : Word} {i : Instr} (hx : decode x = .ok i) (hy : decode y = .ok i) : x = y := by
  obtain ⟨opx, resx, -, argsx⟩ := decode_eq_ok_iff.1 hx
  obtain ⟨opy, resy, -, argsy⟩ := decode_eq_ok_iff.1 hy
  exact (word_eq_iff_opField x y).2
    ⟨opx.trans opy.symm, Instr.extractLsb'_eq_of_hasOperandsOf resx resy argsx argsy⟩

/-- A word that decodes to a command is the encoding of that command, which is well-formed. -/
theorem wellFormed_and_encode_of_decode {w : Word} {i : Instr} (h : decode w = .ok i) :
    i.WellFormed ∧ encode i = w := by
  obtain ⟨-, -, hwf, -⟩ := decode_eq_ok_iff.1 h
  exact ⟨hwf, eq_of_decode_eq_ok (decode_encode hwf) h⟩

/-- Settles O29: the encoding of a command decodes to it, and no other word does. -/
theorem decodeAndEncodeAgree : Obligations.DecodeAndEncodeAgree :=
  ⟨fun _ => decode_encode, fun _ _ => wellFormed_and_encode_of_decode⟩

/-- Settles O30: each of the ten words is a closed term that the decoder evaluates. -/
theorem specWordsDecodeAsWritten : Obligations.SpecWordsDecodeAsWritten := by
  unfold Obligations.SpecWordsDecodeAsWritten
  decide

end Sys2Proof
end

section
/-! PROOFS. What a command writes (spec/10_state.md section 3): the state that each command leaves alone, and that every
command completes (spec/60_exceptions.md section 2). -/

namespace Sys2Proof.Machine

/-- Settles O41: each case of `exec_cases` writes none of these fields, and only the first writes ILLEGAL. -/
theorem commandsCompleteAndKeepHostState : Obligations.CommandsCompleteAndKeepHostState := by
  intro i s
  rcases exec_cases i s with he | ⟨_, he⟩ | ⟨_, he⟩ | ⟨_, _, he⟩ | he | ⟨_, _, _, _, -, -, he⟩ | ⟨-, he⟩ | ⟨-, he⟩ |
    ⟨_, he⟩ | ⟨-, he⟩
  case inl => exact ⟨_, he, rfl, rfl, rfl, rfl, rfl, rfl, ⟨rfl, rfl, rfl, rfl, rfl⟩, fun _ => rfl⟩
  all_goals exact ⟨_, he, by simp [State.sameOutside, State.clearPayload_eq, extractPayload_eq]⟩

/-- A command that writes CRC under a check, and raises ILLEGAL otherwise, writes one of the two (R107, R108). -/
theorem crc_or_illegal_of_ite {legal : Prop} [Decidable legal] {c : Half} {s t : State}
    (h : (if legal then .next { s with crc := c } else .next { s with illegal := true } :
      Host.Outcome State Fault Refusal) = .next t) :
    { t with crc := s.crc } = s ∨ t = { s with illegal := true } := by
  split_ifs at h <;> cases h
  · exact .inl rfl
  · exact .inr rfl

/-- DEC.PAY raises ILLEGAL, or gives DECODE in RESULT, or writes RESULT and the decoded value, and nothing else
(R131). -/
theorem exec_decPay_frame {k : Byte} {m : BitVec 2} {s t : State} (h : exec (.decPay k m) s = .next t) :
    t = { s with illegal := true } ∨ { t with result := s.result } = s ∨
      (t.result = .success ∧
        { t with result := s.result, value := s.value, regpair := s.regpair, tag := s.tag } = s) := by
  by_cases hm : m = 3
  · subst hm
    cases h
    exact .inl rfl
  by_cases hk : decodable k s = true
  · cases (exec_decPay_of_decodable hm hk).symm.trans h
    exact .inr (.inr ⟨rfl, rfl⟩)
  · cases (exec_decPay_of_not_decodable hm hk).symm.trans h
    exact .inr (.inl rfl)

/-- A build writes TXBUF within its frame, TXLEN and CRC, and nothing else (R151, R153). -/
theorem buildFrame_frame (f : List Byte) (len : Len) (s : State) :
    { buildFrame f len s with tx := s.tx, txlen := s.txlen, crc := s.crc } = s ∧
      ∀ j, f.length + 2 ≤ j → (buildFrame f len s).txAt j = s.txAt j :=
  ⟨rfl, fun _ => buildFrame_txAt_of_le len s⟩

/-- A failed check writes RESULT, PV, BYTECOUNT and PAYLEN (R171, R173). -/
theorem clearPayload_frame (r : ResultCode) (s : State) :
    { s.clearPayload.setResult r with result := s.result, pv := s.pv, bytecount := s.bytecount, paylen := s.paylen } =
      s := by
  rw [State.clearPayload_eq, State.setResult]

/-- Step 7 writes RESULT, PV, BYTECOUNT and PAYLEN (R171). -/
theorem extractPayload_frame (s : State) :
    { (extractPayload s).setResult .success with
      result := s.result, pv := s.pv, bytecount := s.bytecount, paylen := s.paylen } = s := by
  rw [extractPayload_eq, State.setResult]

/-- A parser writes RESULT, PV, BYTECOUNT and PAYLEN, and nothing else (R171, R173). -/
theorem exec_parser_frame {i : Instr} {s t : State} (hi : i = .prsRd ∨ i = .prsWr) (h : exec i s = .next t) :
    { t with result := s.result, pv := s.pv, bytecount := s.bytecount, paylen := s.paylen } = s := by
  rcases hi with rfl | rfl
  · cases (exec_prsRd_eq s).symm.trans h
    cases validate Config.fcRead s with
    | some r => exact clearPayload_frame r s
    | none => exact extractPayload_frame s
  · cases (exec_prsWr_eq s).symm.trans h
    exact clearPayload_frame _ s

/-- Settles O39: each command by the frame of its meaning. -/
theorem commandsWriteOnlyTheirState : Obligations.CommandsWriteOnlyTheirState := by
  refine fun s t => ⟨fun h => ?_, fun b h => ?_, fun n h => crc_or_illegal_of_ite ((exec_crcTx n s).symm.trans h),
    fun n h => crc_or_illegal_of_ite ((exec_crcRx n s).symm.trans h), fun i hi h => ?_, fun i hi h => ?_,
    fun k m => exec_decPay_frame, fun h => ?_, fun h => ?_, fun i => exec_parser_frame⟩
  · cases h; rfl
  · cases h; rfl
  · rcases hi with rfl | rfl | rfl <;> cases h <;> rfl
  · rcases hi with rfl | rfl | rfl <;> cases h <;> rfl
  · cases h; exact buildFrame_frame (readRequest s) 8 s
  · cases h; exact buildFrame_frame (writeRequest s) 13 s

/-- Settles O17: both builders are a build, which leaves the four fields alone, of a frame whose length with its CRC is
the one it writes to TXLEN. -/
theorem buildersNeverRejectOperands : Obligations.BuildersNeverRejectOperands := by
  rintro s i (rfl | rfl)
  · exact ⟨_, rfl, by simp, by simp, by simp, by simp, readRequest s, buildFrame_txBytes (readRequest s) 8 s⟩
  · exact ⟨_, rfl, by simp, by simp, by simp, by simp, writeRequest s, buildFrame_txBytes (writeRequest s) 13 s⟩

end Sys2Proof.Machine
end

section
/-! PROOFS. One step of the machine (spec/20_memory.md section 6): everything a step can do, said once, and what it says
of liveness, of the two faults (spec/60_exceptions.md section 2) and of the buffers (spec/10_state.md section 6). -/

namespace Sys2Proof.Machine

/-! ### Everything a step can do -/

/-- The state with the next event taken from the list. -/
def State.taken (s : State) : State := s.setPending s.pending.tail

/-- What a step can make of `s`. -/
inductive State.StepsTo (s : State) : State → Prop
  /-- There is no event, or it has no effect. -/
  | idle : s.StepsTo s.taken
  | assertReset : s.StepsTo (s.taken.setInReset true)
  | release (hreset : s.inReset = true) (hhead : s.pending.head? = some (.resetLine false)) :
      s.StepsTo s.taken.release
  | busError (k : AccessKind) : s.StepsTo (illegalAccess k s.taken)
  | read (w : Word) : s.StepsTo (s.taken.pushRead w)
  /-- A write to CRC or to one of the operand registers. -/
  | writeRegister (crc : Half) (slave : Byte) (addr count : Half) (value regpair : Word) :
      s.StepsTo { s.taken with
        crc := crc, slave := slave, addr := addr, count := count, value := value, regpair := regpair }
  | loadRxlen (w : Word) : s.StepsTo (writeRxlen w s.taken)
  | loadRxByte (i : Fin 256) (w : Word)
      (hhead : s.pending.head? = some (writeEvent s.params (Target.rxbuf i).offset w)) :
      s.StepsTo (writeRxByte i.val w s.taken)
  /-- A write to CMD of a word that does not decode. -/
  | badCommand : s.StepsTo s.taken.raiseIllegal
  | command {t : State} (i : Instr) (w : Word) (hdecode : decode w = .ok i)
      (hhead : s.pending.head? = some (writeEvent s.params Target.cmd.offset w)) (hexec : exec i s.taken = .next t) :
      s.StepsTo t

/-- A write to CMD performs a command or raises ILLEGAL (R70). -/
theorem issue_stepsTo {s : State} {w : Word}
    (hhead : s.pending.head? = some (writeEvent s.params Target.cmd.offset w)) :
    ∃ t, issue w s.taken = .next t ∧ s.StepsTo t := by
  rcases issue_cases w s.taken with ⟨i, hdecode, hissue⟩ | ⟨e, -, hissue⟩
  · obtain ⟨t, hexec, -⟩ := commandsCompleteAndKeepHostState i s.taken
    exact ⟨t, hissue.trans hexec, .command i w hdecode hhead hexec⟩
  · exact ⟨_, hissue, .badCommand⟩

/-- A legal write, by what it names (R51). -/
theorem memWrite_stepsTo {s : State} {r : Target} {w : Word}
    (hhead : s.pending.head? = some (writeEvent s.params r.offset w)) :
    ∃ t, memWrite r w s.taken = .next t ∧ s.StepsTo t := by
  cases r with
  | cmd => exact issue_stepsTo hhead
  | crc => exact ⟨_, rfl, .writeRegister _ s.slave s.addr s.count s.value s.regpair⟩
  | slave => exact ⟨_, rfl, .writeRegister s.crc _ s.addr s.count s.value s.regpair⟩
  | addr => exact ⟨_, rfl, .writeRegister s.crc s.slave _ s.count s.value s.regpair⟩
  | count => exact ⟨_, rfl, .writeRegister s.crc s.slave s.addr _ s.value s.regpair⟩
  | value => exact ⟨_, rfl, .writeRegister s.crc s.slave s.addr s.count _ s.regpair⟩
  | regpair => exact ⟨_, rfl, .writeRegister s.crc s.slave s.addr s.count s.value _⟩
  | rxlen => exact ⟨_, rfl, .loadRxlen w⟩
  | rxbuf i => exact ⟨_, rfl, .loadRxByte i w hhead⟩
  | status | tag | txlen | bytecount | paylen | txbuf => exact ⟨_, rfl, .idle⟩

/-- A host access, by what it reaches (R50–R53, R240). -/
theorem hostAccess_stepsTo {s : State} {a : Access} (hhead : s.pending.head? = some (.access a)) :
    ∃ t, hostAccess a s.taken = .next t ∧ s.StepsTo t := by
  rcases hostAccess_cases a s.taken with ⟨-, ha⟩ | ⟨-, -, ha⟩ | ⟨-, -, ha⟩ | ⟨-, r, hreach, ha⟩
  · exact ⟨_, ha, .idle⟩
  · exact ⟨_, ha, .idle⟩
  · exact ⟨_, ha, .busError a.kind⟩
  · obtain ⟨hbits, haddr⟩ := State.reach_eq_target hreach
    obtain ⟨addr, bits, kind⟩ := a
    obtain rfl : bits = 32 := hbits
    obtain rfl : addr = s.params.blockBase + r.offset := haddr
    cases kind with
    | read => exact ⟨_, ha, .read _⟩
    | write w =>
      obtain ⟨t, hwrite, ht⟩ := memWrite_stepsTo hhead
      exact ⟨t, ha.trans hwrite, ht⟩

/-- A change of the reset line (R240). -/
theorem driveReset_stepsTo {s : State} {b : Bool} (hhead : s.pending.head? = some (.resetLine b)) :
    s.StepsTo (s.taken.driveReset b) := by
  rcases driveReset_cases b s.taken with ⟨-, hd⟩ | ⟨rfl, hreset, hd⟩ | ⟨-, -, hd⟩ <;> rw [hd]
  · exact .assertReset
  · exact .release hreset hhead
  · exact .idle

/-- A step answers a next state, and one of those. -/
theorem step_stepsTo (s : State) : ∃ t, step s = .next t ∧ s.StepsTo t := by
  rcases step_cases s with ⟨hnil, hs⟩ | ⟨e, rest, hcons, hs⟩
  · have htaken : s.taken = s := by
      rw [State.taken, hnil, List.tail_nil, ← hnil]
      rfl
    exact ⟨s.taken, hs.trans (congrArg _ htaken.symm), .idle⟩
  · have htaken : s.setPending rest = s.taken := by rw [State.taken, hcons, List.tail_cons]
    have hhead : s.pending.head? = some e := by rw [hcons, List.head?_cons]
    rw [hs, htaken]
    cases e with
    | access a => exact hostAccess_stepsTo hhead
    | resetLine b => exact ⟨_, rfl, driveReset_stepsTo hhead⟩

/-- The next state of a step is one of those. -/
theorem stepsTo_of_step {s t : State} (h : step s = .next t) : s.StepsTo t := by
  obtain ⟨u, hu, hsteps⟩ := step_stepsTo s
  cases hu.symm.trans h
  exact hsteps

/-! ### Liveness -/

/-- A step takes one event, keeps the parameters and returns at most one word. -/
theorem State.StepsTo.outside {s t : State} (h : s.StepsTo t) :
    t.pending = s.pending.tail ∧ t.params = s.params ∧ ∃ ws, t.reads = ws ++ s.reads ∧ ws.length ≤ 1 := by
  cases h with
  | read w => exact ⟨rfl, rfl, [w], rfl, le_rfl⟩
  | busError k =>
    cases k with
    | read => exact ⟨rfl, rfl, [0], rfl, le_rfl⟩
    | write w => exact ⟨rfl, rfl, [], rfl, Nat.zero_le 1⟩
  | command i w hdecode hhead hexec =>
    obtain ⟨u, hu, -, -, -, -, -, -, ⟨hpending, hreads, hparams, -⟩, -⟩ :=
      commandsCompleteAndKeepHostState i s.taken
    cases hu.symm.trans hexec
    exact ⟨hpending, hparams, [], hreads, Nat.zero_le 1⟩
  | _ => exact ⟨rfl, rfl, [], rfl, Nat.zero_le 1⟩

/-- Settles O43: each case of `StepsTo` takes the event and keeps what is outside, but for the word of a read. -/
theorem everyStepAnswersNext : Obligations.EveryStepAnswersNext := by
  intro s
  obtain ⟨t, hstep, ht⟩ := step_stepsTo s
  exact ⟨t, hstep, ht.outside⟩

/-! ### Faults -/

/-- A command raises ILLEGAL and does nothing else, or raises no fault. -/
theorem exec_faults {i : Instr} {s t : State} (h : exec i s = .next t) :
    t = s.raiseIllegal ∨ (t.illegal = s.illegal ∧ t.buserr = s.buserr) := by
  obtain ⟨u, hu, -, -, -, -, -, hbuserr, -, hillegal⟩ := commandsCompleteAndKeepHostState i s
  cases hu.symm.trans h
  by_cases hsame : t.illegal = s.illegal
  · exact .inr ⟨hsame, hbuserr⟩
  · exact .inl (hillegal hsame)

/-- A step raises no fault, or raises one and does nothing else but return the word 0 for an illegal read, or releases
reset. -/
theorem State.StepsTo.faults {s t : State} (h : s.StepsTo t) :
    (t.illegal = s.illegal ∧ t.buserr = s.buserr) ∨ t = s.taken.raiseIllegal ∨ t = s.taken.raiseBuserr ∨
      t = s.taken.raiseBuserr.pushRead 0 ∨
      (t = s.taken.release ∧ s.inReset = true ∧ s.pending.head? = some (.resetLine false)) := by
  cases h with
  | release hreset hhead => exact .inr (.inr (.inr (.inr ⟨rfl, hreset, hhead⟩)))
  | busError k =>
    cases k with
    | read => exact .inr (.inr (.inr (.inl rfl)))
    | write w => exact .inr (.inr (.inl rfl))
  | badCommand => exact .inr (.inl rfl)
  | command i w hdecode hhead hexec =>
    rcases exec_faults hexec with hill | hsame
    · exact .inr (.inl hill)
    · exact .inl hsame
  | _ => exact .inl ⟨rfl, rfl⟩

/-- Settles O42: a word by whether its command raises ILLEGAL; a step by the cases of `StepsTo.faults`. -/
theorem faultsArePreciseAndSticky : Obligations.FaultsArePreciseAndSticky := by
  refine ⟨fun w s => ?_, fun s t hstep => ?_⟩
  · rcases issue_cases w s with ⟨i, hdecode, hissue⟩ | ⟨e, -, hissue⟩
    · obtain ⟨t, hexec, -⟩ := commandsCompleteAndKeepHostState i s
      rw [hissue]
      rcases exec_faults hexec with rfl | ⟨hillegal, hbuserr⟩
      · exact .inl hexec
      · exact .inr ⟨i, t, hdecode, hexec, hexec, hillegal, hbuserr⟩
    · exact .inl hissue
  · have hno {b : Bool} {p : Prop} (h0 : b = false) (h1 : b = true) : p :=
      absurd (h0.symm.trans h1) Bool.false_ne_true
    rcases (stepsTo_of_step hstep).faults with ⟨hillegal, hbuserr⟩ | rfl | rfl | rfl | ⟨rfl, hrelease⟩
    · rw [hillegal, hbuserr]
      exact ⟨hno, hno, .inl, .inl⟩
    · exact ⟨fun _ _ => rfl, hno, fun _ => .inl rfl, .inl⟩
    · exact ⟨hno, fun _ _ => .inl rfl, .inl, fun _ => .inl rfl⟩
    · exact ⟨hno, fun _ _ => .inr rfl, .inl, fun _ => .inl rfl⟩
    · exact ⟨fun _ => hno rfl, fun _ => hno rfl, fun _ => .inr hrelease, fun _ => .inr hrelease⟩

/-! ### Who writes the buffers -/

/-- A command that writes TXBUF or TXLEN is a builder. -/
theorem builder_of_exec_writes_tx {i : Instr} {s t : State} (h : exec i s = .next t)
    (hne : t.tx ≠ s.tx ∨ t.txlen ≠ s.txlen) : i = .bldRd ∨ i = .bldWr := by
  have kept {u : State} (he : exec i s = .next u) (htx : u.tx = s.tx) (htxlen : u.txlen = s.txlen) :
      i = .bldRd ∨ i = .bldWr := by
    cases he.symm.trans h
    exact absurd hne (not_or.2 ⟨not_not.2 htx, not_not.2 htxlen⟩)
  rcases exec_cases i s with he | ⟨_, he⟩ | ⟨_, he⟩ | ⟨_, _, he⟩ | he | ⟨_, _, _, _, -, -, he⟩ | ⟨hi, -⟩ | ⟨hi, -⟩ |
    ⟨_, he⟩ | ⟨-, he⟩
  · exact kept he rfl rfl
  · exact kept he rfl rfl
  · exact kept he rfl rfl
  · exact kept he rfl rfl
  · exact kept he rfl rfl
  · exact kept he rfl rfl
  · exact .inl hi
  · exact .inr hi
  · rw [State.clearPayload_eq] at he
    exact kept he rfl rfl
  · rw [extractPayload_eq] at he
    exact kept he rfl rfl

/-- What TXBUF reads as depends on its written bytes and the draws. -/
theorem State.txAt_congr {s t : State} (htx : t.tx = s.tx) (hepoch : t.drawEpoch = s.drawEpoch) (j : Nat) :
    t.txAt j = s.txAt j := by
  rw [State.txAt, State.txAt, State.bufferAt, State.bufferAt, htx, hepoch]

/-- What RXBUF reads as depends on its written bytes and the draws. -/
theorem State.rxAt_congr {s t : State} (hrx : t.rx = s.rx) (hepoch : t.drawEpoch = s.drawEpoch) (j : Nat) :
    t.rxAt j = s.rxAt j := by
  rw [State.rxAt, State.rxAt, State.bufferAt, State.bufferAt, hrx, hepoch]

/-- A step that is no release of reset writes RXBUF only as a host write to one of its entries. -/
theorem State.StepsTo.rx {s t : State} (h : s.StepsTo t) (hepoch : t.drawEpoch = s.drawEpoch) :
    t.rx = s.rx ∨ ∃ (i : Fin 256) (w : Word),
      s.pending.head? = some (writeEvent s.params (Target.rxbuf i).offset w) ∧ t = writeRxByte i.val w s.taken := by
  cases h with
  | release => exact absurd hepoch (Nat.succ_ne_self _)
  | loadRxByte i w hhead => exact .inr ⟨i, w, hhead, rfl⟩
  | command i w hdecode hhead hexec =>
    obtain ⟨u, hu, -, -, -, -, hrx, -⟩ := commandsCompleteAndKeepHostState i s.taken
    cases hu.symm.trans hexec
    exact .inl hrx
  | busError k => cases k <;> exact .inl rfl
  | _ => exact .inl rfl

/-- A step that is no release of reset writes TXBUF or TXLEN only as a builder. -/
theorem State.StepsTo.tx {s t : State} (h : s.StepsTo t) (hepoch : t.drawEpoch = s.drawEpoch) :
    (t.tx = s.tx ∧ t.txlen = s.txlen) ∨ ∃ (i : Instr) (w : Word), (i = .bldRd ∨ i = .bldWr) ∧ decode w = .ok i ∧
      s.pending.head? = some (writeEvent s.params Target.cmd.offset w) := by
  cases h with
  | release => exact absurd hepoch (Nat.succ_ne_self _)
  | command i w hdecode hhead hexec =>
    by_cases hne : t.tx ≠ s.tx ∨ t.txlen ≠ s.txlen
    · exact .inr ⟨i, w, builder_of_exec_writes_tx hexec hne, hdecode, hhead⟩
    · exact .inl (by simpa using hne)
  | busError k => cases k <;> exact .inl ⟨rfl, rfl⟩
  | _ => exact .inl ⟨rfl, rfl⟩

/-- Settles O48: a buffer that keeps its written bytes reads the same, and the word of a builder is its encoding. -/
theorem onlyBuildersWriteTxAndOnlyTheHostWritesRx : Obligations.OnlyBuildersWriteTxAndOnlyTheHostWritesRx := by
  intro s t j _ hstep hepoch
  have hsteps := stepsTo_of_step hstep
  refine ⟨fun hne => ?_, fun hne => ?_⟩
  · rcases hsteps.rx hepoch with hrx | ⟨i, w, hhead, rfl⟩
    · exact absurd (State.rxAt_congr hrx hepoch j) hne
    · have hread := writeRxByte_rxAt i.val j w s.taken
      obtain rfl : j = i.val := by_contra fun hj => hne (hread.trans (if_neg hj))
      exact ⟨w, hhead, hread.trans (if_pos rfl)⟩
  · rcases hsteps.tx hepoch with ⟨htx, htxlen⟩ | ⟨i, w, hi, hdecode, hhead⟩
    · exact absurd hne (not_or.2 ⟨not_not.2 (State.txAt_congr htx hepoch j), not_not.2 htxlen⟩)
    · obtain ⟨-, rfl⟩ := wellFormed_and_encode_of_decode hdecode
      rcases hi with rfl | rfl
      · exact .inl hhead
      · exact .inr hhead

end Sys2Proof.Machine
end

section
/-! PROOFS. The invariant of the block: it holds after reset, and every command and every step keeps it
(spec/10_state.md sections 4 and 6, spec/43_frame_build.md sections 2 and 3, spec/44_frame_parse.md sections 1
and 2). -/

namespace Sys2Proof.Machine

/-! ### What the invariant looks at -/

/-- The request part of the invariant looks at TXBUF and TXLEN only. -/
theorem State.RequestOk.congr {s t : State} (h : s.RequestOk) (htx : t.tx = s.tx) (htxlen : t.txlen = s.txlen)
    (hepoch : t.drawEpoch = s.drawEpoch) : t.RequestOk := by
  have hat := State.txAt_congr htx hepoch
  have hbytes (n : Nat) : t.txBytes 0 n = s.txBytes 0 n := State.txBytes_congr fun j _ _ => hat j
  simpa only [State.RequestOk, htxlen, hat, hbytes] using h

/-- The payload part of the invariant looks at RXBUF, RXLEN and the registers of the payload; RESULT may become SUCCESS
or DECODE. -/
theorem State.PayloadOk.congr {s t : State} (h : s.PayloadOk) (hrx : t.rx = s.rx) (hrxlen : t.rxlen = s.rxlen)
    (hepoch : t.drawEpoch = s.drawEpoch) (hpv : t.pv = s.pv) (hbytecount : t.bytecount = s.bytecount)
    (hpaylen : t.paylen = s.paylen) (hresult : t.result = s.result ∨ t.result = .success ∨ t.result = .decode) :
    t.PayloadOk := by
  have hat := State.rxAt_congr hrx hepoch
  have hbytes (n : Nat) : t.rxBytes 0 n = s.rxBytes 0 n := State.rxBytes_congr fun j _ _ => hat j
  rw [State.PayloadOk, hpv, hrxlen, hbytecount, hpaylen, hat, hat, hbytes]
  intro hset
  obtain ⟨hlen, hcrc, hfc, hbc, hpl, hres⟩ := h hset
  exact ⟨hlen, hcrc, hfc, hbc, hpl, hresult.elim (fun hsame => hsame ▸ hres) id⟩

/-- A change that leaves the buffers, the lengths and the registers of the payload alone keeps the invariant. -/
theorem State.Inv.congr {s t : State} (h : s.Inv) (htx : t.tx = s.tx) (htxlen : t.txlen = s.txlen)
    (hrx : t.rx = s.rx) (hrxlen : t.rxlen = s.rxlen) (hepoch : t.drawEpoch = s.drawEpoch) (hpv : t.pv = s.pv)
    (hbytecount : t.bytecount = s.bytecount) (hpaylen : t.paylen = s.paylen)
    (hresult : t.result = s.result ∨ t.result = .success ∨ t.result = .decode) : t.Inv := by
  obtain ⟨hbuffers, hrequest, hpayload, hle⟩ := h
  refine ⟨?_, hrequest.congr htx htxlen hepoch,
    hpayload.congr hrx hrxlen hepoch hpv hbytecount hpaylen hresult, ?_⟩
  · rwa [State.BuffersOk, htx, hrx, htxlen, hrxlen]
  · rwa [hpaylen, hbytecount]

/-- A change that clears PV keeps the invariant when it keeps the request, and RXBUF, RXLEN and the lengths of the
payload stay in their ranges. -/
theorem State.Inv.of_pv_clear {s t : State} (h : s.Inv) (htx : t.tx = s.tx) (htxlen : t.txlen = s.txlen)
    (hepoch : t.drawEpoch = s.drawEpoch) (hpv : t.pv = false) (hrx : t.rx.wf = true)
    (hrxlen : t.rxlen.toNat ≤ Config.frameMax) (hle : t.paylen.toNat ≤ t.bytecount.toNat) : t.Inv := by
  obtain ⟨⟨hwf, -, hmax, -⟩, hrequest, -, -⟩ := h
  exact ⟨⟨htx ▸ hwf, hrx, htxlen ▸ hmax, hrxlen⟩, hrequest.congr htx htxlen hepoch,
    fun hset => absurd (hpv.symm.trans hset) Bool.false_ne_true, hle⟩

/-- With no byte written and the lengths and PV at 0 there is nothing to hold. -/
theorem State.inv_of_empty {s : State} (htx : s.tx = []) (hrx : s.rx = []) (htxlen : s.txlen = 0) (hrxlen : s.rxlen = 0)
    (hpv : s.pv = false) (hpaylen : s.paylen = 0) : s.Inv := by
  refine ⟨⟨htx ▸ rfl, hrx ▸ rfl, htxlen ▸ Nat.zero_le _, hrxlen ▸ Nat.zero_le _⟩, .inl htxlen,
    fun hset => absurd (hpv.symm.trans hset) Bool.false_ne_true, hpaylen ▸ Nat.zero_le _⟩

/-- Settles O49: every field it looks at is empty, 0 or clear. -/
theorem resetMeetsTheBlockInvariant : Obligations.ResetMeetsTheBlockInvariant :=
  State.inv_of_empty rfl rfl rfl rfl rfl rfl

/-! ### Commands -/

@[simp] theorem readRequest_length (s : State) : (readRequest s).length = 6 := rfl

@[simp] theorem writeRequest_length (s : State) : (writeRequest s).length = 11 := rfl

/-- What TXBUF reads as within a built frame. -/
theorem buildFrame_txAt_of_lt {f : List Byte} {j : Nat} (len : Len) (s : State) (h : j < f.length) :
    (buildFrame f len s).txAt j = f[j] := by
  rw [buildFrame_txAt, dif_pos (by simp; omega), List.getElem_append_left h]

/-- BLD.RD leaves a read request with its CRC (R151). -/
theorem requestOk_buildFrame_readRequest (s : State) : (buildFrame (readRequest s) 8 s).RequestOk :=
  .inr (.inl ⟨rfl, buildFrame_txAt_of_lt 8 s (by simp), readRequest s, buildFrame_txBytes (readRequest s) 8 s⟩)

/-- BLD.WR leaves a write request with its CRC (R153). -/
theorem requestOk_buildFrame_writeRequest (s : State) : (buildFrame (writeRequest s) 13 s).RequestOk := by
  have hat {j : Nat} (h : j < 11) := buildFrame_txAt_of_lt (f := writeRequest s) 13 s h
  exact .inr (.inr ⟨rfl, hat (by decide), hat (by decide), hat (by decide), hat (by decide), writeRequest s,
    buildFrame_txBytes (writeRequest s) 13 s⟩)

/-- A build of a request keeps the invariant: it leaves RXBUF and the payload alone, and its frame fits TXBUF. -/
theorem State.Inv.of_buildFrame {s : State} {f : List Byte} {len : Len} (h : s.Inv)
    (hf : f.length + 2 ≤ Config.frameMax) (hlen : len.toNat ≤ Config.frameMax)
    (hrequest : (buildFrame f len s).RequestOk) : (buildFrame f len s).Inv := by
  obtain ⟨⟨hwf, hrx, -, hrxlen⟩, -, hpayload, hle⟩ := h
  refine ⟨⟨Memory.wf_writeBytes hwf ?_, by simpa, by simpa, by simpa⟩, hrequest, ?_, by simpa⟩
  · rw [Nat.zero_add, List.length_append]
    exact hf
  · exact hpayload.congr (by simp) (by simp) (by simp) (by simp) (by simp) (by simp) (.inl (by simp))

/-- A response that passes the common checks of PRS.RD is what the payload part of the invariant asks (R170). -/
theorem response_of_validate_eq_none {fc : Byte} {s : State} (h : validate fc s = none) :
    5 ≤ s.rxlen.toNat ∧ endsInItsCrc (s.rxBytes 0 s.rxlen.toNat) ∧ s.rxAt 0 = s.slave ∧ s.rxAt 1 = fc := by
  rcases validate_stops_or_endsInItsCrc fc s with ⟨r, -, hr⟩ | ⟨hlen, hcrc⟩
  · cases hr.symm.trans h
  · rw [validate_of_endsInItsCrc hlen hcrc] at h
    split_ifs at h with hslave hfc
    exact ⟨(five_le_minLen fc s).trans hlen, hcrc, not_not.1 hslave, not_not.1 hfc⟩

/-- The clamped slice length fits PAYLEN (R9, R171). -/
theorem extractPayload_paylen_toNat (s : State) :
    (extractPayload s).paylen.toNat = min (s.rxAt 2).toNat (s.rxlen.toNat - 3) := by
  have hbyte := (s.rxAt 2).isLt
  simp only [extractPayload_eq, BitVec.toNat_ofNat]
  omega

/-- Accepting a read response keeps the invariant: the checks give its payload part (R171). -/
theorem State.Inv.of_accepted {s t : State} (h : s.Inv) (hvalid : validate Config.fcRead s = none) (htx : t.tx = s.tx)
    (htxlen : t.txlen = s.txlen) (hrx : t.rx = s.rx) (hrxlen : t.rxlen = s.rxlen) (hepoch : t.drawEpoch = s.drawEpoch)
    (hbytecount : t.bytecount = s.rxAt 2) (hpaylen : t.paylen.toNat = min (s.rxAt 2).toNat (s.rxlen.toNat - 3))
    (hresult : t.result = .success) : t.Inv := by
  obtain ⟨hbuffers, hrequest, -, -⟩ := h
  obtain ⟨hlen, hcrc, -, hfc⟩ := response_of_validate_eq_none hvalid
  have hat := State.rxAt_congr hrx hepoch
  have hbytes : t.rxBytes 0 s.rxlen.toNat = s.rxBytes 0 s.rxlen.toNat := State.rxBytes_congr fun j _ _ => hat j
  refine ⟨?_, hrequest.congr htx htxlen hepoch, fun _ => ?_, ?_⟩
  · rwa [State.BuffersOk, htx, hrx, htxlen, hrxlen]
  · rw [hrxlen, hbytes, hat, hat, hbytecount]
    exact ⟨hlen, hcrc, hfc, rfl, hpaylen, .inl hresult⟩
  · rw [hpaylen, hbytecount]
    exact Nat.min_le_left _ _

/-- Every command keeps the invariant. -/
theorem exec_keeps_inv {i : Instr} {s t : State} (h : exec i s = .next t) (hinv : s.Inv) : t.Inv := by
  rcases exec_cases i s with he | ⟨_, he⟩ | ⟨_, he⟩ | ⟨_, _, he⟩ | he | ⟨_, _, _, _, -, -, he⟩ | ⟨-, he⟩ | ⟨-, he⟩ |
    ⟨_, he⟩ | ⟨hvalid, he⟩ <;> cases he.symm.trans h
  · exact hinv.congr rfl rfl rfl rfl rfl rfl rfl rfl (.inl rfl)
  · exact hinv.congr rfl rfl rfl rfl rfl rfl rfl rfl (.inl rfl)
  · exact hinv.congr rfl rfl rfl rfl rfl rfl rfl rfl (.inl rfl)
  · exact hinv.congr rfl rfl rfl rfl rfl rfl rfl rfl (.inl rfl)
  · exact hinv.congr rfl rfl rfl rfl rfl rfl rfl rfl (.inr (.inr rfl))
  · exact hinv.congr rfl rfl rfl rfl rfl rfl rfl rfl (.inr (.inl rfl))
  · exact hinv.of_buildFrame (by simp [Config.frameMax]) (by decide) (requestOk_buildFrame_readRequest s)
  · exact hinv.of_buildFrame (by simp [Config.frameMax]) (by decide) (requestOk_buildFrame_writeRequest s)
  · have ⟨⟨_, hrx, _, hrxlen⟩, _⟩ := hinv
    rw [State.clearPayload_eq, State.setResult]
    exact hinv.of_pv_clear rfl rfl rfl rfl hrx hrxlen le_rfl
  · have hpaylen := extractPayload_paylen_toNat s
    rw [extractPayload_eq] at hpaylen ⊢
    exact hinv.of_accepted hvalid rfl rfl rfl rfl rfl rfl hpaylen rfl

/-! ### Steps -/

/-- Every step keeps the invariant. -/
theorem State.StepsTo.keeps_inv {s t : State} (h : s.StepsTo t) (hinv : s.Inv) : t.Inv := by
  have htaken : s.taken.Inv := hinv.congr rfl rfl rfl rfl rfl rfl rfl rfl (.inl rfl)
  have ⟨⟨_, hrx, _, hrxlen⟩, _, _, hle⟩ := htaken
  cases h with
  | release => exact State.inv_of_empty rfl rfl rfl rfl rfl rfl
  | loadRxlen w =>
    refine htaken.of_pv_clear rfl rfl rfl rfl hrx ?_ hle
    exact (writeRxlen_rxlen_toNat w s.taken).trans_le (Nat.min_le_right _ _)
  | loadRxByte i w => exact htaken.of_pv_clear rfl rfl rfl rfl (Memory.wf_write _ hrx i.isLt) hrxlen hle
  | command i w hdecode hhead hexec => exact exec_keeps_inv hexec htaken
  | busError k => cases k <;> exact htaken.congr rfl rfl rfl rfl rfl rfl rfl rfl (.inl rfl)
  | _ => exact htaken.congr rfl rfl rfl rfl rfl rfl rfl rfl (.inl rfl)

/-- Settles O50: each case of `StepsTo` keeps the invariant; a command does so by `exec_keeps_inv`. -/
theorem stepKeepsTheBlockInvariant : Obligations.StepKeepsTheBlockInvariant :=
  fun _ _ hinv hstep => (stepsTo_of_step hstep).keeps_inv hinv

end Sys2Proof.Machine
end

section
/-! PROOFS. STATUS and VALUE as the host reads them (spec/10_state.md section 4, spec/42_codec.md section 1), the issue
of a command by a step (spec/30_encoding.md section 1) and the reset input (spec/70_reset_and_hazards.md section
1). -/

namespace Sys2Proof.Machine

/-! ### STATUS -/

/-- The fields of STATUS at their bits, over every value of the three flags and of the 4-bit outcome (R24). -/
theorem statusFields : ∀ (buserr illegal pv : Bool) (code : BitVec 4),
    let w := 0#22 ++ BitVec.ofBool buserr ++ BitVec.ofBool illegal ++ 0#3 ++ BitVec.ofBool pv ++ code
    w.extractLsb' 0 4 = code ∧ w.getLsbD 4 = pv ∧ w.extractLsb' 5 3 = 0 ∧ w.getLsbD 8 = illegal ∧
      w.getLsbD 9 = buserr ∧ w.extractLsb' 10 22 = 0 := by
  decide

/-- Settles O32: STATUS is the word of `statusFields`, the codes are a table, and a write to STATUS is ignored. -/
theorem statusWordHoldsItsFields : Obligations.StatusWordHoldsItsFields := by
  refine ⟨fun s => statusFields s.buserr s.illegal s.pv s.result.code, rfl, fun r => ?_, rfl,
    fun s w rest hr => step_write s .status w rest hr⟩
  cases r <;> decide

/-! ### VALUE -/

/-- Settles O8: the integer readings are the definitions; the fields of the float are the quotients and remainders of
the number of the pattern. -/
theorem valueReadsByItsTag : Obligations.ValueReadsByItsTag := by
  refine fun v => ⟨rfl, rfl, ?_⟩
  have hsign : v.getLsbD 31 = decide (2 ^ 31 ≤ v.toNat) := BitVec.msb_eq_decide v
  have hexponent : (v.extractLsb' 23 8).toNat = v.toNat / 2 ^ 23 % 2 ^ 8 := by
    rw [BitVec.extractLsb'_toNat, Nat.shiftRight_eq_div_pow]
  have hfraction : v.extractLsb' 0 23 = BitVec.ofNat 23 (v.toNat % 2 ^ 23) := by
    apply BitVec.eq_of_toNat_eq
    simp
  have hzero : BitVec.ofNat 23 (v.toNat % 2 ^ 23) = 0 ↔ v.toNat % 2 ^ 23 = 0 := by
    rw [← BitVec.toNat_inj]
    simp
  have hnumber : (BitVec.ofNat 23 (v.toNat % 2 ^ 23)).toNat = v.toNat % 2 ^ 23 := by simp
  simp only [sem, binary32, hsign, hexponent, hfraction, hzero, hnumber, Int.sub_sub]
  rfl

/-! ### The step that issues a command -/

/-- Settles O44: the step is a write to CMD, which issues the word. -/
theorem stepRunsTheDecodedCommand : Obligations.StepRunsTheDecodedCommand := by
  intro s rest w hr
  have hstep := step_write s .cmd w rest hr
  refine ⟨fun i hdecode _ => ⟨hstep.trans (issue_ok _ hdecode), ?_⟩,
    fun e hdecode => hstep.trans (issue_error _ hdecode)⟩
  have hword : BitVec.ofNat 32 (w.toNat % 2 ^ 32) = w := by
    rw [Nat.mod_eq_of_lt w.isLt, BitVec.ofNat_toNat, BitVec.setWidth_eq]
  have hreset : s.setInReset false = s := by rw [State.setInReset, ← hr]
  rw [State.withFetchWord, hword, hreset]
  exact (step_write s .cmd w s.pending hr).trans (issue_ok s hdecode)

/-! ### The reset input -/

/-- STATUS right after a release (R36). -/
theorem State.release_status (s : State) : s.release.status = 0x0000000F := by
  rw [State.status, State.release_buserr, State.release_illegal, State.release_pv, State.release_result]
  rfl

/-- Settles O46: the three events are `driveReset` and an access that the asserted input turns away. -/
theorem releaseOfResetRestoresTheTable : Obligations.ReleaseOfResetRestoresTheTable := by
  refine fun s rest => ⟨rfl, fun hreset a => ?_, fun hreset => ?_⟩
  · exact if_pos hreset
  · have hrelease : step { s with pending := .resetLine false :: rest } = .next (s.setPending rest).release :=
      congrArg Host.Outcome.next (if_pos hreset)
    exact ⟨_, hrelease, rfl, rfl, rfl, rfl, rfl, rfl, rfl, rfl, rfl, rfl, rfl, rfl,
      State.release_status _,
      fun i => ⟨State.txAt_of_unwritten rfl, State.rxAt_of_unwritten rfl⟩, rfl, rfl, rfl⟩

end Sys2Proof.Machine
end

section
/-! PROOFS. Host programs (spec/30_encoding.md section 6): what lines in sequence leave, and the pseudo-instructions
readreq and loadrx. -/

namespace Sys2Proof.Machine

/-! ### Host programs in sequence -/

/-- Two runs in a row are one. -/
theorem run_add {m n : Nat} {s t : State} (h : Host.Core.run Sys2Proof.core m s = .next t) :
    Host.Core.run Sys2Proof.core (m + n) s = Host.Core.run Sys2Proof.core n t := by
  induction m generalizing s with
  | zero =>
    cases h
    rw [Nat.zero_add]
  | succ m ih =>
    obtain ⟨u, hu, -⟩ := step_stepsTo s
    rw [Nat.succ_add]
    exact (run_succ (m + n) hu).trans (ih ((run_succ m hu).symm.trans h))

/-- From `s` the lines perform all their accesses and leave `t`, out of reset, whatever is to come after them. -/
def Performs (lines : List HostLine) (s t : State) : Prop :=
  t.inReset = false ∧ t.params = s.params ∧ ∀ rest,
    Host.Core.run Sys2Proof.core lines.length (s.setPending (lines.map (HostLine.event s.params) ++ rest)) =
      .next (t.setPending rest)

theorem Performs.inReset_eq_false {lines : List HostLine} {s t : State} (h : Performs lines s t) :
    t.inReset = false := by
  obtain ⟨hr, -, -⟩ := h
  exact hr

/-- One line is one step. -/
theorem Performs.line {line : HostLine} {s t : State} (hr : t.inReset = false) (hparams : t.params = s.params)
    (h : ∀ rest, step (s.setPending (line.event s.params :: rest)) = .next (t.setPending rest)) :
    Performs [line] s t :=
  ⟨hr, hparams, fun rest => run_succ 0 (h rest)⟩

/-- Two programs in a row. -/
theorem Performs.append {as bs : List HostLine} {s t u : State} (ha : Performs as s t) (hb : Performs bs t u) :
    Performs (as ++ bs) s u := by
  obtain ⟨-, hparams, hrun⟩ := ha
  obtain ⟨hr, hparams', hrun'⟩ := hb
  refine ⟨hr, hparams'.trans hparams, fun rest => ?_⟩
  rw [List.length_append, List.map_append, List.append_assoc, run_add (hrun _), ← hparams]
  exact hrun' rest

/-- A program that is loaded alone runs to its end. -/
theorem Performs.run_withProgram {lines : List HostLine} {s t : State} (h : Performs lines s t) :
    Host.Core.run Sys2Proof.core lines.length (s.withProgram lines) = .next (t.setPending []) := by
  obtain ⟨-, -, hrun⟩ := h
  rw [← hrun [], List.append_nil, State.withProgram]

/-- A line that writes a register or a buffer entry (R51). -/
theorem performs_wr {r : Target} {w : Word} {s t : State} (hr : s.inReset = false) (htr : t.inReset = false)
    (hparams : t.params = s.params) (h : ∀ rest, memWrite r w (s.setPending rest) = .next (t.setPending rest)) :
    Performs [.wr r w] s t :=
  .line htr hparams fun rest => (step_wrLine s r w rest hr).trans (h rest)

/-- A line that reads returns what the register or buffer entry holds (R51). -/
theorem performs_rd (r : Target) {s : State} (hr : s.inReset = false) :
    Performs [.rd r] s (s.pushRead (memRead r s)) :=
  .line hr rfl fun rest => step_rdLine s r rest hr

/-- A line that issues a command performs it (R70). -/
theorem performs_cmd {i : Instr} {s t : State} (hr : s.inReset = false) (hwf : i.WellFormed) (htr : t.inReset = false)
    (hparams : t.params = s.params) (h : ∀ rest, exec i (s.setPending rest) = .next (t.setPending rest)) :
    Performs [.cmd i] s t :=
  .line htr hparams fun rest => (step_cmdLine s i rest hr (decode_encode hwf)).trans (h rest)

/-- What a word carries of a narrower field is the field. -/
theorem setWidth_setWidth_32 {n : Nat} (h : n ≤ 32) (x : BitVec n) : (x.setWidth 32).setWidth n = x := by
  rw [BitVec.setWidth_setWidth_of_le x h, BitVec.setWidth_eq]

/-- The state after the operands of a read request have been written. -/
def State.withOperands (slave : Byte) (address count : Half) (s : State) : State :=
  ((s.setSlave slave).setAddr address).setCount count

/-- The pseudo-instruction readreq builds the request for its operands (R80, R151). -/
theorem performs_readreq (slave : Byte) (address count : Half) {s : State} (hr : s.inReset = false) :
    Performs (readreq slave address count) s
      (buildFrame (readRequest (s.withOperands slave address count)) 8 (s.withOperands slave address count)) := by
  have hslave : Performs [.wr .slave (slave.setWidth 32)] s (s.setSlave slave) :=
    performs_wr hr hr rfl fun rest => by rw [memWrite, setWidth_setWidth_32 (by decide)]; rfl
  have haddr (s : State) (hr : s.inReset = false) :
      Performs [.wr .addr (address.setWidth 32)] s (s.setAddr address) :=
    performs_wr hr hr rfl fun rest => by rw [memWrite, setWidth_setWidth_32 (by decide)]; rfl
  have hcount (s : State) (hr : s.inReset = false) :
      Performs [.wr .count (count.setWidth 32)] s (s.setCount count) :=
    performs_wr hr hr rfl fun rest => by rw [memWrite, setWidth_setWidth_32 (by decide)]; rfl
  have hbuild : Performs [.cmd .bldRd] (s.withOperands slave address count)
      (buildFrame (readRequest (s.withOperands slave address count)) 8 (s.withOperands slave address count)) :=
    performs_cmd hr rfl (by simpa [State.withOperands]) (by simp) fun _ => rfl
  exact hslave.append ((haddr (s.setSlave slave) hr).append
    ((hcount ((s.setSlave slave).setAddr address) hr).append hbuild))

/-! ### Loading a response -/

/-- The state after a response has been loaded: its bytes in RXBUF, its length in RXLEN, and PV clear (R30, R80). -/
def State.withResponse (bytes : List Byte) (s : State) : State :=
  { s with rx := s.rx.writeBytes 0 bytes, rxlen := BitVec.ofNat 9 bytes.length, pv := false }

/-- What RXBUF reads as after a response has been loaded. -/
theorem State.withResponse_rxAt (bytes : List Byte) (s : State) (j : Nat) :
    (s.withResponse bytes).rxAt j = if h : j < bytes.length then bytes[j] else s.rxAt j := by
  rw [State.rxAt, State.bufferAt, State.withResponse, Memory.byte?_writeBytes]
  by_cases h : j < bytes.length
  · simp [h]
  · simp [h]
    rfl

/-- The bytes of RXBUF that RXLEN names are the response. -/
theorem State.withResponse_rxBytes (bytes : List Byte) (s : State) :
    (s.withResponse bytes).rxBytes 0 bytes.length = bytes := by
  apply List.ext_getElem
  · simp
  · intro j _ hj
    rw [State.rxBytes_getElem, Nat.zero_add, State.withResponse_rxAt, dif_pos hj]

theorem State.withResponse_rxlen_toNat {bytes : List Byte} (s : State) (h : bytes.length ≤ 256) :
    (s.withResponse bytes).rxlen.toNat = bytes.length :=
  Nat.mod_eq_of_lt (by omega)

/-- Of two writes of RXBUF before RXLEN the last counts, and PV is clear after them. -/
theorem writeRxlen_setRx_setPv (w : Word) (m n : Memory) (b : Bool) (s : State) :
    writeRxlen w (((s.setRx m).setPv b).setRx n) = writeRxlen w (s.setRx n) := by
  simp only [writeRxlen, State.setRx, State.setPv, State.setRxlen]

/-- Bytes written into RXBUF from an index on, and then RXLEN, which clears PV even when there is no byte (R30). -/
theorem performs_loadBytes (bytes : List Byte) (i : Nat) (w : Word) (s : State) (hr : s.inReset = false)
    (hi : i + bytes.length ≤ 256) :
    Performs (loadBytes i bytes ++ [.wr .rxlen w]) s (writeRxlen w (s.setRx (s.rx.writeBytes i bytes))) := by
  induction bytes generalizing i s with
  | nil => exact performs_wr hr hr rfl fun _ => rfl
  | cons b bytes ih =>
    rw [List.length_cons] at hi
    have hindex : (Fin.ofNat 256 i).val = i := Nat.mod_eq_of_lt (by omega)
    have hbyte : writeRxByte i (b.setWidth 32) s = (s.setRx (s.rx.write i b)).setPv false := by
      rw [writeRxByte, setWidth_setWidth_32 (by decide)]
    have hfirst : Performs [.wr (.rxbuf (Fin.ofNat 256 i)) (b.setWidth 32)] s (writeRxByte i (b.setWidth 32) s) :=
      performs_wr hr hr rfl fun rest => by rw [memWrite, hindex]; rfl
    rw [hbyte] at hfirst
    have hrest := ih (i + 1) ((s.setRx (s.rx.write i b)).setPv false) hr (by omega)
    rw [writeRxlen_setRx_setPv] at hrest
    exact hfirst.append hrest

@[simp] theorem loadBytes_length (i : Nat) (bytes : List Byte) : (loadBytes i bytes).length = bytes.length := by
  induction bytes generalizing i with
  | nil => rfl
  | cons b bytes ih => rw [loadBytes, List.length_cons, ih, List.length_cons]

@[simp] theorem loadrx_length (bytes : List Byte) : (loadrx bytes).length = bytes.length + 1 := by
  simp [loadrx]

/-- The pseudo-instruction loadrx loads the response (R80). -/
theorem performs_loadrx {bytes : List Byte} {s : State} (hr : s.inReset = false) (hlen : bytes.length ≤ 256) :
    Performs (loadrx bytes) s (s.withResponse bytes) := by
  have hload := performs_loadBytes bytes 0 (BitVec.ofNat 32 bytes.length) s hr (by omega)
  have hclamp : min (BitVec.ofNat 32 bytes.length).toNat Config.frameMax = bytes.length := by
    rw [BitVec.toNat_ofNat, Config.frameMax]
    omega
  rw [writeRxlen, hclamp] at hload
  exact hload

/-- Settles O38: the run is `performs_loadrx`. -/
theorem loadrxPresentsTheResponse : Obligations.LoadrxPresentsTheResponse := by
  intro s bytes hr hlen
  have hrun := (performs_loadrx hr hlen).run_withProgram
  rw [loadrx_length] at hrun
  have hat := s.withResponse_rxAt bytes
  exact ⟨_, hrun, fun j hj => (hat j).trans (dif_pos hj), fun j hj => (hat j).trans (dif_neg (Nat.not_lt.2 hj)),
    s.withResponse_rxlen_toNat hlen, rfl⟩

end Sys2Proof.Machine
end

section
/-! PROOFS. Responses that a parser accepts: the read response of N values (spec/43_frame_build.md section 2,
spec/44_frame_parse.md section 2, spec/42_codec.md section 2), the echo of a write (spec/44_frame_parse.md section 3),
and one whole read transaction (spec/60_exceptions.md section 5). -/

namespace Sys2Proof.Machine

/-! ### The bytes of a response -/

/-- A byte of a response by its place in the slice. -/
theorem State.getElem?_of_rxBytes {s : State} {n j : Nat} {bytes : List Byte} (h : s.rxBytes 0 n = bytes)
    (hj : j < n) : bytes[j]? = some (s.rxAt j) := by
  rw [← h, List.getElem?_eq_getElem (by simpa), State.rxBytes_getElem, Nat.zero_add]

/-- A word on the wire, from its highest byte (R54). -/
def wordBytes (v : Word) : List Byte :=
  [v.extractLsb' 24 8, v.extractLsb' 16 8, v.extractLsb' 8 8, v.extractLsb' 0 8]

/-- The bytes of a word assemble to it (R131). -/
theorem assembleFloat_extractLsb' (v : Word) :
    assembleFloat (v.extractLsb' 24 8) (v.extractLsb' 16 8) (v.extractLsb' 8 8) (v.extractLsb' 0 8) = v := by
  apply BitVec.eq_of_toNat_eq
  have hv := v.isLt
  simp only [assembleFloat_toNat, BitVec.extractLsb'_toNat, Nat.shiftRight_eq_div_pow]
  omega

/-- Byte `i` of word `k` in a row of words. -/
theorem getElem?_flatMap_wordBytes (vs : List Word) (tail : List Byte) {k i : Nat} (hk : k < vs.length) (hi : i < 4) :
    (vs.flatMap wordBytes ++ tail)[4 * k + i]? = (wordBytes vs[k])[i]? := by
  induction vs generalizing k with
  | nil => exact absurd hk (Nat.not_lt_zero k)
  | cons v vs ih =>
    have hlength : (wordBytes v).length = 4 := rfl
    rw [List.flatMap_cons, List.append_assoc]
    cases k with
    | zero => rw [Nat.mul_zero, Nat.zero_add, List.getElem?_append_left (by omega), List.getElem_cons_zero]
    | succ k =>
      have hindex : 4 * (k + 1) + i - (wordBytes v).length = 4 * k + i := by omega
      rw [List.getElem?_append_right (by omega), hindex, List.getElem_cons_succ]
      exact ih (Nat.lt_of_succ_lt_succ hk)

/-- A response to a read of the words `vs`, before its CRC (R171). -/
def readBody (slave : Byte) (vs : List Word) : List Byte :=
  [slave, 0x03, BitVec.ofNat 8 (4 * vs.length)] ++ vs.flatMap wordBytes

/-- A response to a read of the words `vs` (R171). -/
def readResponse (slave : Byte) (vs : List Word) : List Byte :=
  readBody slave vs ++ crcBytes (crc16 (readBody slave vs))

@[simp] theorem readResponse_length (slave : Byte) (vs : List Word) :
    (readResponse slave vs).length = 4 * vs.length + 5 := by
  have hwords : (vs.flatMap wordBytes).length = 4 * vs.length := by
    simp [List.length_flatMap, wordBytes, Nat.mul_comm]
  simp [readResponse, readBody, hwords, crcBytes]

/-! ### A read response -/

/-- RXBUF holds the response to a read of the words `vs`, which COUNT asks for. -/
structure State.HoldsReadResponse (s : State) (vs : List Word) : Prop where
  length_le : 4 * vs.length ≤ 251
  count : s.count.toNat = 2 * vs.length
  rxlen : s.rxlen.toNat = 4 * vs.length + 5
  bytes : s.rxBytes 0 (4 * vs.length + 5) = readResponse s.slave vs

/-- The state after a read response for the words `vs` has been accepted (R171). -/
def State.acceptedRead (vs : List Word) (s : State) : State :=
  { s with
    bytecount := BitVec.ofNat 8 (4 * vs.length), paylen := BitVec.ofNat 9 (4 * vs.length), pv := true,
    result := .success }

section
variable {s : State} {vs : List Word} (h : s.HoldsReadResponse vs)
include h

/-- The three bytes before the payload. -/
theorem State.HoldsReadResponse.header :
    s.rxAt 0 = s.slave ∧ s.rxAt 1 = Config.fcRead ∧ s.rxAt 2 = BitVec.ofNat 8 (4 * vs.length) := by
  have hat {j : Nat} (hj : j < 3) : (readResponse s.slave vs)[j]? = some (s.rxAt j) :=
    State.getElem?_of_rxBytes h.bytes (by omega)
  exact ⟨(Option.some.inj (hat (j := 0) (by decide))).symm, (Option.some.inj (hat (j := 1) (by decide))).symm,
    (Option.some.inj (hat (j := 2) (by decide))).symm⟩

/-- What a response is does not depend on the events to come. -/
theorem State.HoldsReadResponse.setPending (rest : List Event) : (s.setPending rest).HoldsReadResponse vs :=
  ⟨h.length_le, h.count, h.rxlen,
    (State.rxBytes_congr (s := s.setPending rest) (t := s) fun _ _ _ => rfl).trans h.bytes⟩

/-- The response passes the common checks: with COUNT = 2 it has 9 bytes (R170). -/
theorem State.HoldsReadResponse.validate_eq_none : validate Config.fcRead s = none := by
  obtain ⟨hslave, hfc, -⟩ := h.header
  obtain ⟨-, hcount, hrxlen, hbytes⟩ := h
  have hmin : minLen Config.fcRead s ≤ s.rxlen.toNat := by
    rw [minLen_fcRead]
    split_ifs with h2
    · have htwo : s.count.toNat = 2 := by rw [h2]; rfl
      cases s.params.rdMinLenSingle <;> simp only [RdMinLenSingle.bytes] <;> omega
    · omega
  rw [validate_of_endsInItsCrc hmin (by rw [hrxlen, hbytes]; exact ⟨_, rfl⟩), if_neg (not_not.2 hslave),
    if_neg (not_not.2 hfc)]

/-- The response is accepted, with its whole payload (R171). -/
theorem State.HoldsReadResponse.exec_prsRd : exec .prsRd s = .next (s.acceptedRead vs) := by
  have hvalid := h.validate_eq_none
  obtain ⟨-, -, hbytecount⟩ := h.header
  obtain ⟨hmax, -, hrxlen, -⟩ := h
  have hclamp : min (BitVec.ofNat 8 (4 * vs.length)).toNat (s.rxlen.toNat - 3) = 4 * vs.length := by
    rw [BitVec.toNat_ofNat]
    omega
  rw [exec_prsRd_eq, hvalid, Option.elim_none, extractPayload_eq, hbytecount, hclamp, State.setResult,
    State.acceptedRead]

/-- Word `k` of the payload is word `k` of the list. -/
theorem State.HoldsReadResponse.payloadWord_eq {k : Byte} (hk : k.toNat < vs.length) :
    payloadWord k s = vs[k.toNat] := by
  obtain ⟨-, -, -, hbytes⟩ := h
  have hat {i j : Nat} (hi : i < 4) (hj : j = 3 + 4 * k.toNat + i) :
      (wordBytes vs[k.toNat])[i]? = some (s.rxAt j) := by
    rw [← getElem?_flatMap_wordBytes vs (crcBytes (crc16 (readBody s.slave vs))) hk hi,
      ← State.getElem?_of_rxBytes hbytes (by omega), readResponse, readBody, List.append_assoc, hj, Nat.add_assoc,
      Nat.add_comm 3]
    rfl
  rw [payloadWord, ← Option.some.inj (hat (i := 0) (by decide) (by omega)),
    ← Option.some.inj (hat (i := 1) (by decide) (by omega)), ← Option.some.inj (hat (i := 2) (by decide) (by omega)),
    ← Option.some.inj (hat (i := 3) (by decide) (by omega))]
  exact assembleFloat_extractLsb' _

/-- After the response has been accepted, each of its values decodes in every mode (R131). -/
theorem State.HoldsReadResponse.decodable_acceptedRead {k : Byte} (hk : k.toNat < vs.length) :
    decodable k (s.acceptedRead vs) = true := by
  obtain ⟨hmax, hcount, -, -⟩ := h
  have hpaylen : (s.acceptedRead vs).paylen.toNat = 4 * vs.length := Nat.mod_eq_of_lt (by omega)
  refine (decodable_iff k _).2 ⟨rfl, ?_, by omega⟩
  rw [hpaylen]
  exact (show 4 * vs.length = 2 * s.count.toNat by omega)

end

/-- Settles O25: the response is accepted by `exec_prsRd`, and DEC.PAY reads the words of the list. -/
theorem readResponseDeliversEveryValue : Obligations.ReadResponseDeliversEveryValue := by
  intro s vs body hmax hcount hrxlen hbytes
  have h : s.HoldsReadResponse vs := ⟨hmax, hcount, hrxlen, hbytes⟩
  refine ⟨_, h.exec_prsRd, rfl, rfl, Nat.mod_eq_of_lt (by omega), Nat.mod_eq_of_lt (by omega), fun k m hk hm => ?_⟩
  rw [← h.payloadWord_eq hk]
  exact exec_decPay_of_decodable hm (h.decodable_acceptedRead hk)

/-! ### The echo of a write -/

/-- The two bytes of a field on the wire are the field (R54). -/
theorem half_hi8_lo8 (v : Half) : half (hi8 v) (lo8 v) = v :=
  (half_eq_append _ _).trans BitVec.extractLsb'_append_extractLsb'

/-- With the address echoed, the echo check is whether the count is 2 (R173). -/
theorem checkEcho_of_addr_echoed {s : State} {n : Half} (haddr : half (s.rxAt 2) (s.rxAt 3) = s.addr)
    (hcount : half (s.rxAt 4) (s.rxAt 5) = n) : checkEcho s = if n = 2 then none else some .count := by
  rw [checkEcho, haddr, hcount, if_neg (not_not.2 rfl)]
  exact ite_not (n = 2) _ _

/-- Settles O27: the echo passes the common checks and echoes ADDR, so that its count alone is left to check. -/
theorem writeEchoIsAccepted : Obligations.WriteEchoIsAccepted := by
  intro s n body hrxlen hbytes
  have hlen : s.rxlen.toNat = 8 := by rw [hrxlen]; rfl
  have hat {j : Nat} (hj : j < 8) : (body ++ crcBytes (crc16 body))[j]? = some (s.rxAt j) :=
    State.getElem?_of_rxBytes hbytes hj
  have hslave : s.slave = s.rxAt 0 := Option.some.inj (hat (j := 0) (by decide))
  have hfc : Config.fcWrite = s.rxAt 1 := Option.some.inj (hat (j := 1) (by decide))
  have haddr : half (s.rxAt 2) (s.rxAt 3) = s.addr := by
    rw [← Option.some.inj (hat (j := 2) (by decide)), ← Option.some.inj (hat (j := 3) (by decide))]
    exact half_hi8_lo8 s.addr
  have hcount : half (s.rxAt 4) (s.rxAt 5) = n := by
    rw [← Option.some.inj (hat (j := 4) (by decide)), ← Option.some.inj (hat (j := 5) (by decide))]
    exact half_hi8_lo8 n
  have hvalid : validate Config.fcWrite s = none := by
    rw [validate_of_endsInItsCrc (by rw [minLen_fcWrite, hlen]; decide) (by rw [hlen, hbytes]; exact ⟨body, rfl⟩),
      if_neg (not_not.2 hslave.symm), if_neg (not_not.2 hfc.symm)]
  rw [exec_prsWr_eq, hvalid, checkEcho_of_addr_echoed haddr hcount, State.clearPayload_eq, State.setResult]
  split_ifs <;> rfl

/-! ### One read transaction -/

/-- STATUS after a success with a payload and no fault (R24). -/
theorem State.status_of_success {s : State} (hresult : s.result = .success) (hpv : s.pv = true) (hfault : s.NoFault) :
    s.status = 0x00000010#32 := by
  obtain ⟨hillegal, hbuserr⟩ := hfault
  rw [State.status, hresult, hpv, hillegal, hbuserr]
  rfl

/-- Each of the words `vs` can be decoded from the payload. -/
def State.Offers (s : State) (vs : List Word) : Prop :=
  ∀ (k : Byte) (hk : k.toNat < vs.length), decodable k s = true ∧ payloadWord k s = vs[k.toNat]

/-- Step 6 of a read transaction: the response is accepted, STATUS says so, and it offers its values (R213). -/
theorem performs_prsRd {s : State} {vs : List Word} (h : s.HoldsReadResponse vs) (hr : s.inReset = false)
    (hfault : s.NoFault) :
    ∃ t, Performs [.cmd .prsRd, .rd .status] s t ∧ t.NoFault ∧ t.reads = 0x00000010#32 :: s.reads ∧
      t.Offers vs := by
  have haccept : Performs [.cmd .prsRd] s (s.acceptedRead vs) :=
    performs_cmd hr rfl hr rfl fun rest => (h.setPending rest).exec_prsRd
  have hstatus : memRead .status (s.acceptedRead vs) = 0x00000010#32 := State.status_of_success rfl rfl hfault
  exact ⟨_, haccept.append (performs_rd .status hr), hfault, congrArg (· :: s.reads) hstatus,
    fun k hk => ⟨h.decodable_acceptedRead hk, h.payloadWord_eq hk⟩⟩

/-- Steps 5 and 6 of a read transaction: the response is loaded and accepted (R213). -/
theorem performs_presentRead {s : State} {vs : List Word} (hr : s.inReset = false) (hfault : s.NoFault)
    (hmax : 4 * vs.length ≤ 251) (hcount : s.count.toNat = 2 * vs.length) :
    ∃ t, Performs (presentRead (readResponse s.slave vs)) s t ∧ t.NoFault ∧ t.reads = 0x00000010#32 :: s.reads ∧
      t.Offers vs := by
  have hlength := readResponse_length s.slave vs
  have hload : Performs (loadrx (readResponse s.slave vs)) s (s.withResponse (readResponse s.slave vs)) :=
    performs_loadrx hr (by omega)
  have hholds : (s.withResponse (readResponse s.slave vs)).HoldsReadResponse vs :=
    ⟨hmax, hcount, hlength ▸ s.withResponse_rxlen_toNat (by omega), hlength ▸ s.withResponse_rxBytes _⟩
  obtain ⟨t, haccept, hfault, hreads, hvalues⟩ := performs_prsRd hholds hload.inReset_eq_false hfault
  exact ⟨t, hload.append haccept, hfault, hreads, hvalues⟩

/-- The state after DEC.PAY of a value that is available (R131). -/
def State.decodedPay (k : Byte) (m : BitVec 2) (s : State) : State :=
  { s with tag := modeTag m, value := payloadWord k s, regpair := payloadWord k s, result := .success }

/-- The TAG of a mode reads as the mode (R27, R75). -/
theorem modeTag_code (m : BitVec 2) :
    (modeTag m).code.setWidth 32 = if m = 0 then 0#32 else if m = 1 then 1#32 else 2#32 := by
  rw [modeTag]
  split_ifs <;> rfl

/-- Step 7 of a read transaction: the value is decoded, and VALUE and TAG are read (R213). -/
theorem performs_decodeLines {s : State} {k : Byte} {m : BitVec 2} (hr : s.inReset = false) (hfault : s.NoFault)
    (hm : m ≠ 3) (hk : decodable k s = true) :
    ∃ t, Performs (decodeLines k m) s t ∧ t.NoFault ∧
      t.reads = (if m = 0 then 0#32 else if m = 1 then 1#32 else 2#32) :: payloadWord k s :: s.reads := by
  have hdecode : Performs [.cmd (.decPay k m)] s (s.decodedPay k m) :=
    performs_cmd hr (decide_eq_true hm) hr rfl fun rest => exec_decPay_of_decodable (s := s.setPending rest) hm hk
  have hvalue := performs_rd .value (s := s.decodedPay k m) hr
  have htag := performs_rd .tag (s := (s.decodedPay k m).pushRead (payloadWord k s)) hr
  exact ⟨_, hdecode.append (hvalue.append htag), hfault, by rw [← modeTag_code]; rfl⟩

/-- Steps 1 and 2 of a read transaction: the request is built for its operands, and TXLEN reads 8 (R213). -/
theorem performs_request (slave : Byte) (address count : Half) {s : State} (hr : s.inReset = false)
    (hfault : s.NoFault) :
    ∃ t, Performs (readreq slave address count ++ [.rd .txlen]) s t ∧ t.slave = slave ∧ t.count = count ∧ t.NoFault ∧
      t.reads = 8#32 :: s.reads := by
  have hrequest := performs_readreq slave address count hr
  refine ⟨_, hrequest.append (performs_rd .txlen hrequest.inReset_eq_false), ?_, ?_, ?_, ?_⟩
  · simp [State.withOperands]
  · simp [State.withOperands]
  · simpa [State.NoFault, State.withOperands] using hfault
  · simp [memRead, State.withOperands]

/-- Settles O26: the request, the response and the value in sequence; the response answers the operands that the request
has written. -/
theorem readTransactionDeliversTheValue : Obligations.ReadTransactionDeliversTheValue := by
  intro s slave address vs k m hk hr hfault hmax hm body lines
  obtain ⟨t, hrequest, rfl, hcount, hfault, hreads⟩ :=
    performs_request slave address (BitVec.ofNat 16 (2 * vs.length)) hr hfault
  have hnumber : t.count.toNat = 2 * vs.length := by
    rw [hcount]
    exact Nat.mod_eq_of_lt (by omega)
  obtain ⟨u, hpresent, hfault, hreads', hvalues⟩ := performs_presentRead hrequest.inReset_eq_false hfault hmax hnumber
  obtain ⟨hk', hword⟩ := hvalues k hk
  obtain ⟨v, hdecode, hfault, hreads''⟩ := performs_decodeLines hpresent.inReset_eq_false hfault hm hk'
  have hlines : lines = readreq t.slave address (BitVec.ofNat 16 (2 * vs.length)) ++ [.rd .txlen] ++
      presentRead (readResponse t.slave vs) ++ decodeLines k m := rfl
  rw [hlines]
  exact ⟨_, ((hrequest.append hpresent).append hdecode).run_withProgram,
    hreads''.trans (by rw [hword, hreads', hreads]), rfl, hfault⟩

end Sys2Proof.Machine
end
